-- ==== Sys2Proof/Word.lean ====
section
/-! DEFINITION. The widths of the KCZ-LCC's values (00_scope.md R8, R10): everything is unsigned. -/

namespace Sys2Proof

/-- `HALF_W`, `MOD_W`, `KEY_W`: one half's scan mask, a modifier byte, a keycode, a buffer byte (R8). -/
abbrev Byte := BitVec 8

/-- `MASK_W`: the combined switch state of both halves, and an action word (R8, R101). -/
abbrev Mask := BitVec 16

/-- A host bus word, a command word, a chord entry (R61, R90, R103). -/
abbrev Word := BitVec 32

/-- A byte offset `addr[11:0]` in the host register window (R60). -/
abbrev Addr := BitVec 12

end Sys2Proof
end

