-- ==== Sys2Proof/Syntax.lean ====
section
/-! DEFINITION. The commands of the opcode map, 30_encoding.md R97: one constructor per row, in the table's order. -/

namespace Sys2Proof

/-- A command of the KCZ-LCC with its operands as the formats F0, FN, FM, FLI and FLB place them (R91 to R95). -/
inductive Instr where
  /-- `NOP` (R121), format F0. -/
  | nop
  /-- `LINK_WRITE len` (R180), format FN. -/
  | linkWrite (len : Byte)
  /-- `LINK_READ cap` (R186), format FN. -/
  | linkRead (cap : Byte)
  /-- `ST_UPDATE left, right` (R145), format FM. -/
  | stUpdate (left right : Byte)
  /-- `KH_UPDATE left, right` (R155), format FM. -/
  | khUpdate (left right : Byte)
  /-- `EVAL_TRIGGERS` (R150), format F0; its operands stand in ARG0 and ARG1. -/
  | evalTriggers
  /-- `SET_ACTIVE_LAYER layer` (R122), format FN. -/
  | setActiveLayer (layer : Byte)
  /-- `CHORD_WRITE layer, index` (R124), format FLI; the entry stands in ARG0. -/
  | chordWrite (layer index : Byte)
  /-- `CHORD_READ layer, index` (R126), format FLI. -/
  | chordRead (layer index : Byte)
  /-- `SET_CHORD_COUNT layer, count` (R127), format FLI. -/
  | setChordCount (layer count : Byte)
  /-- `MODMAP_WRITE layer, bit, mod` (R129), format FLB. -/
  | modmapWrite (layer : Byte) (bit : BitVec 4) (mod : Byte)
  /-- `MODMAP_READ layer, bit` (R130), format FLB with MOD zero. -/
  | modmapRead (layer : Byte) (bit : BitVec 4)
  deriving DecidableEq, Repr

end Sys2Proof
end

