-- ==== Sys2Proof/Decode.lean ====
section
/-! DEFINITION. Decoding a command word (30_encoding.md R91 to R98) and, after it, encoding a command (R109). -/

namespace Sys2Proof

/-- Why a word does not decode (R96, steps 1 and 2). -/
inductive DecodeError where
  /-- The opcode is not in the opcode map: IllegalCommand (R98). -/
  | illegalCommand
  /-- A reserved bit is 1: IllegalArgument (R96, R99). -/
  | illegalArgument
  deriving DecidableEq, Repr

/-- OPCODE, bits `[31:24]` (R90). -/
def opcodeField (v : Word) : Byte := v.extractLsb' 24 8

/-- Bits `[7:0]`: N of FN, RIGHT of FM, INDEX or COUNT of FLI, MOD of FLB (R92 to R95). -/
def lowField (v : Word) : Byte := v.extractLsb' 0 8

/-- LEFT of FM, bits `[15:8]` (R93). -/
def leftField (v : Word) : Byte := v.extractLsb' 8 8

/-- LAYER of FLI and FLB, bits `[23:16]` (R94, R95). -/
def layerField (v : Word) : Byte := v.extractLsb' 16 8

/-- BIT of FLB, bits `[11:8]` (R95). -/
def bitField (v : Word) : BitVec 4 := v.extractLsb' 8 4

/-- R97's `reserved_mask` of an opcode; `none` for an unassigned opcode (R98). -/
def reservedMask (op : Byte) : Option Word :=
  if op = 0x00#8 then some 0x00FFFFFF#32
  else if op = 0x01#8 then some 0x00FFFF00#32
  else if op = 0x02#8 then some 0x00FFFF00#32
  else if op = 0x10#8 then some 0x00FF0000#32
  else if op = 0x11#8 then some 0x00FF0000#32
  else if op = 0x12#8 then some 0x00FFFFFF#32
  else if op = 0x20#8 then some 0x00FFFF00#32
  else if op = 0x21#8 then some 0x0000FF00#32
  else if op = 0x22#8 then some 0x0000FF00#32
  else if op = 0x23#8 then some 0x0000FF00#32
  else if op = 0x24#8 then some 0x0000F000#32
  else if op = 0x25#8 then some 0x0000F0FF#32
  else none

/-- The command an assigned opcode names, its operands read from the word's fields (R91 to R95, R97). -/
def operation (op : Byte) (v : Word) : Option Instr :=
  if op = 0x00#8 then some .nop
  else if op = 0x01#8 then some (.linkWrite (lowField v))
  else if op = 0x02#8 then some (.linkRead (lowField v))
  else if op = 0x10#8 then some (.stUpdate (leftField v) (lowField v))
  else if op = 0x11#8 then some (.khUpdate (leftField v) (lowField v))
  else if op = 0x12#8 then some .evalTriggers
  else if op = 0x20#8 then some (.setActiveLayer (lowField v))
  else if op = 0x21#8 then some (.chordWrite (layerField v) (lowField v))
  else if op = 0x22#8 then some (.chordRead (layerField v) (lowField v))
  else if op = 0x23#8 then some (.setChordCount (layerField v) (lowField v))
  else if op = 0x24#8 then some (.modmapWrite (layerField v) (bitField v) (lowField v))
  else if op = 0x25#8 then some (.modmapRead (layerField v) (bitField v))
  else none

/-- R96, steps 1 and 2: the opcode first, then the reserved bits. The range check of step 3 and the guard of step 4
depend on the parameters and the state, so they stand in each command's meaning. -/
def decode (v : Word) : Except DecodeError Instr :=
  match reservedMask (opcodeField v), operation (opcodeField v) v with
  | some mask, some i => if v &&& mask = 0#32 then .ok i else .error .illegalArgument
  | _, _ => .error .illegalCommand

/-- The command word of a command (R91 to R95, R109), `{OPCODE, operands}` with every reserved bit 0. -/
def encode : Instr → Word
  | .nop => 0x00#8 ++ 0#24
  | .linkWrite len => 0x01#8 ++ 0#16 ++ len
  | .linkRead cap => 0x02#8 ++ 0#16 ++ cap
  | .stUpdate left right => 0x10#8 ++ 0#8 ++ left ++ right
  | .khUpdate left right => 0x11#8 ++ 0#8 ++ left ++ right
  | .evalTriggers => 0x12#8 ++ 0#24
  | .setActiveLayer layer => 0x20#8 ++ 0#16 ++ layer
  | .chordWrite layer index => 0x21#8 ++ layer ++ 0#8 ++ index
  | .chordRead layer index => 0x22#8 ++ layer ++ 0#8 ++ index
  | .setChordCount layer count => 0x23#8 ++ layer ++ 0#8 ++ count
  | .modmapWrite layer bit mod => 0x24#8 ++ layer ++ 0#4 ++ bit ++ mod
  | .modmapRead layer bit => 0x25#8 ++ layer ++ 0#4 ++ bit ++ 0#8

/-- The 32-bit command word held by the low `nbits` bits of `w` (R90: a command is exactly one word). -/
def tableWord (nbits w : Nat) : Word := BitVec.ofNat 32 (w % 2 ^ nbits)

/-- The command the decoder reads from an opcode-table word of `nbits` bits. -/
def decodeTableWord (nbits w : Nat) : Option Instr :=
  match decode (tableWord nbits w) with
  | .ok i => some i
  | .error _ => none

end Sys2Proof
end

