-- ==== Sys2Proof/Config.lean ====
section
/-! DEFINITION. The implementation parameters of 00_scope.md R8, what R8 and R9 ask of them, and the free values. -/

namespace Sys2Proof

/-- `BIT_ORDER`: the order of the 8 payload bits of a byte on the wire (R8, R174). -/
inductive BitOrder where
  | msbFirst
  | lsbFirst
  deriving DecidableEq, Repr

/-- The parameters that R8 leaves to the implementation. -/
structure Config where
  /-- `TIMEOUT`: polls per bounded wait (R194). -/
  timeout : Nat
  /-- `T_SETUP`: cycles data is driven with the clock low, per bit (R198). -/
  tSetup : Nat
  /-- `T_HIGH`: cycles the clock is driven high, per bit (R199). -/
  tHigh : Nat
  /-- `T_READY`: cycles the reader drives data low to signal ready (R202). -/
  tReady : Nat
  /-- `SYNC_STAGES`: input synchroniser depth (R172). -/
  syncStages : Nat
  /-- `BIT_ORDER` (R174). -/
  bitOrder : BitOrder
  /-- `LINK_BUF`: bytes in each of TX_BUF and RX_BUF (R45). -/
  linkBuf : Nat
  /-- `N_LAYERS`: layers in layer memory (R32). -/
  nLayers : Nat
  /-- `MAX_CHORDS`: chord entries per layer (R33). -/
  maxChords : Nat
  /-- `F_CLK`: frequency of `clk`; it only converts delays to cycles, and no rule of the block reads it (R8). -/
  fClk : Nat
  deriving DecidableEq, Repr

/-- The values the spec's vectors use (R8's table). `F_CLK` has none: 0 stands there. DESIGN CHOICE, log 2. -/
def Config.vectors : Config where
  timeout := 16
  tSetup := 2
  tHigh := 2
  tReady := 3
  syncStages := 2
  bitOrder := .msbFirst
  linkBuf := 16
  nLayers := 4
  maxChords := 64
  fClk := 0

/-- Every parameter lies in the range R8's table gives it. -/
def Config.inRange (c : Config) : Bool :=
  decide ((1 ≤ c.timeout ∧ c.timeout ≤ 65536) ∧ (1 ≤ c.tSetup ∧ c.tSetup ≤ 65536) ∧
    (1 ≤ c.tHigh ∧ c.tHigh ≤ 65536) ∧ (1 ≤ c.tReady ∧ c.tReady ≤ 65536) ∧
    (1 ≤ c.syncStages ∧ c.syncStages ≤ 4) ∧ (1 ≤ c.linkBuf ∧ c.linkBuf ≤ 255) ∧
    (1 ≤ c.nLayers ∧ c.nLayers ≤ 255) ∧ (1 ≤ c.maxChords ∧ c.maxChords ≤ 255))

/-- R9's bound for the lockstep composition: `TIMEOUT >= max(T_HIGH, T_READY, 2*SYNC_STAGES + T_SETUP + 2)`. -/
def Config.lockstepBound (c : Config) : Bool :=
  decide (max (max c.tHigh c.tReady) (2 * c.syncStages + c.tSetup + 2) ≤ c.timeout)

/-- Both endpoints have the same timing parameters ("both endpoints configured alike", R9). -/
def Config.sameTiming (a b : Config) : Bool :=
  decide (a.timeout = b.timeout) && decide (a.tSetup = b.tSetup) && decide (a.tHigh = b.tHigh) &&
  decide (a.tReady = b.tReady) && decide (a.syncStages = b.syncStages)

/-- The bound of R9 on a pair of endpoints in lockstep: stated only for two endpoints configured alike (log 10). -/
def Config.lockstepOk (a b : Config) : Bool :=
  if Config.sameTiming a b then a.lockstepBound else true

/-- `N_max = 8*LINK_BUF + floor(8*LINK_BUF/5) + 8`, the bits of the longest frame (R270). -/
def Config.longestFrame (c : Config) : Nat :=
  8 * c.linkBuf + 8 * c.linkBuf / 5 + 8

/-- R270's duty: the cycles a host waits after a reader error before the next LINK_READ, from the parameters `c`. Whose
parameters these are R270 leaves open: the model gives the reader's own. DESIGN CHOICE, log 16. -/
def Config.rereadCycles (c : Config) : Nat :=
  c.longestFrame * (c.tSetup + c.tHigh)

/-- FREE VALUE (R12 `draw`, R171): the level of the clock wire in the `n`-th contended cycle. It has no body, so no
proof can rest on what it is. Log 4. -/
opaque Config.clkDraw : Nat → Bool

/-- FREE VALUE (R12 `draw`, R171): the level of the data wire in the `n`-th contended cycle. Log 4. -/
opaque Config.datDraw : Nat → Bool

end Sys2Proof
end

