-- ==== Sys2Proof/Machine/Operands.lean ====
section
/-! DEFINITION. Operand forms: the ranges R100 gives command operands, the operands that stand in ARG0 and ARG1, and
the fields of a chord entry and an action word (R101, R103). -/

namespace Sys2Proof.Machine

/-- LEN of LINK_WRITE and CAP of LINK_READ: `0 .. LINK_BUF` (R100, R179). -/
def lengthOk (c : Config) (n : Byte) : Bool := decide (n.toNat ≤ c.linkBuf)

/-- LAYER: `0 .. N_LAYERS-1` (R100). -/
def layerOk (c : Config) (layer : Byte) : Bool := decide (layer.toNat < c.nLayers)

/-- LAYER and INDEX of CHORD_WRITE and CHORD_READ: INDEX is `0 .. MAX_CHORDS-1` (R100). -/
def chordOk (c : Config) (layer index : Byte) : Bool := layerOk c layer && decide (index.toNat < c.maxChords)

/-- LAYER and COUNT of SET_CHORD_COUNT: COUNT is `0 .. MAX_CHORDS` (R100). -/
def countOk (c : Config) (layer count : Byte) : Bool := layerOk c layer && decide (count.toNat ≤ c.maxChords)

/-- `{left, right}` as the combined 16-bit state: `(LEFT << 8) | RIGHT` on the zero-extended masks (R141, R145). -/
def combine (left right : Byte) : Mask := (left.setWidth 16 <<< 8) ||| right.setWidth 16

/-- TRIGGER of EVAL_TRIGGERS: `ARG0[15:0]` (R150). -/
def evalTrigger (arg0 : Word) : Mask := arg0.extractLsb' 0 16

/-- LAST of EVAL_TRIGGERS: `ARG0[31:16]` (R150). -/
def evalLast (arg0 : Word) : Mask := arg0.extractLsb' 16 16

/-- RELEASED of EVAL_TRIGGERS: `ARG1[15:0]`; `ARG1[31:16]` is ignored (R150). -/
def evalReleased (arg1 : Word) : Mask := arg1.extractLsb' 0 16

/-- TRIGGER of a chord entry: bits `[15:0]` (R103). -/
def entryTrigger (entry : Word) : Mask := entry.extractLsb' 0 16

/-- ACTION of a chord entry: bits `[31:16]` (R103). -/
def entryAction (entry : Word) : Mask := entry.extractLsb' 16 16

/-- The action word's tag, bits `[15:14]`, is `Key` (R101). -/
def actionIsKey (action : Mask) : Bool := action.extractLsb' 14 2 == 0#2

/-- The keycode of a `Key` action: bits `[7:0]` (R101). -/
def actionKeycode (action : Mask) : Byte := action.extractLsb' 0 8

end Sys2Proof.Machine
end

