-- ==== Sys2Proof/Machine/State.lean ====
section
/-! DEFINITION. The state of one KCZ-LCC instance as plain data (10_state.md), the model's own fields beside it, the
reasons a step can stop, and the state after reset (R49, R260). -/

namespace Sys2Proof.Machine

/-- The faults the SPEC gives a model of this block. The block itself has none (R236, R239), and the spec gives the
machine an effect in each of these cases, so NO STEP STOPS WITH ONE: the run goes on and is MARKED with it
(`Env.marks`, sticky), which is "the run is marked faulted and no claim about it holds". Logs 4 and 5. -/
inductive Fault where
  /-- `wire_contention` on the clock wire (R171): recorded by the wire resolution in a cycle in which both pads drive
  it to opposite levels. Safe: the level is a free value. -/
  | clkContention
  /-- `wire_contention` on the data wire (R171): recorded by the wire resolution. Safe: the level is a free value. -/
  | datContention
  /-- A LINK_WRITE was accepted in the first SYNC_STAGES cycles after reset (R272): recorded by LINK_WRITE. Safe: the
  command keeps the effect of R180. -/
  | earlyLinkWrite
  /-- A LINK_READ was accepted before R270's wait after a reader error was over: recorded by LINK_READ. Safe: the
  command keeps the effect of R186. -/
  | earlyLinkRead
  deriving DecidableEq, Repr

/-- Why the model does not go on. No command's meaning answers with one. -/
inductive Refusal where
  /-- An instruction with no meaning: raised by no arm of `exec`, since every command has its meaning. Safe. -/
  | notModelled (mnemonic : String)
  /-- A parameter outside R8's range: raised by `step`, `Pair.tick` and `Pair.lockstep`; the model refuses the
  configuration (R9, 93_implementation_defined.md I7). Safe. -/
  | parameters
  /-- Two endpoints with different BIT_ORDER: raised by `Pair.tick` and `Pair.lockstep` (R267, I6). Safe. -/
  | bitOrderMismatch
  /-- Two endpoints configured alike that break R9's bound: raised by `Pair.lockstep` (I7). Safe. -/
  | lockstepBound
  /-- Two endpoints on two clocks that break R276's conditions on their parameters: raised by `Pair.tick` (R9). Safe. -/
  | clockTiming
  deriving DecidableEq, Repr

/-- The immediate response of a command, `CMD_RESP.RESP` (R23, R65, R230). -/
inductive Resp where
  /-- Code 0. -/
  | accepted
  /-- Code 1 (R178). -/
  | pinsBusy
  /-- Code 8 (R98). -/
  | illegalCommand
  /-- Code 9 (R96, R100). -/
  | illegalArgument
  deriving DecidableEq, Repr

/-- The completion code of a link transaction, `LINK_STATUS.RESULT` (R44, R67, R230). -/
inductive Result where
  /-- Code 0. -/
  | ok
  /-- Code 2 (R181). -/
  | alreadyWriting
  /-- Code 3 (R191). -/
  | overflow
  /-- Code 4 (R192). -/
  | incorrectEndMarker
  /-- Code 5 (R208). -/
  | timeout
  /-- Code 6: in the code table, never raised (R211). -/
  | other
  /-- Code 7 NONE: no completed transaction since reset, or one in flight (R210). -/
  | none
  deriving DecidableEq, Repr

/-- `LSTATE`, the link unit's state (R37); its codes are `LState.code`. -/
inductive LState where
  /-- Code 0 (R195). -/
  | idle
  /-- Code 1, bounded (R196). -/
  | wWaitLow
  /-- Code 2, bounded (R197). -/
  | wWaitHigh
  /-- Code 3, T_SETUP cycles (R198). -/
  | wSetup
  /-- Code 4, T_HIGH cycles (R199). -/
  | wHigh
  /-- Code 8, bounded (R201). -/
  | rWaitReq
  /-- Code 9, T_READY cycles (R202). -/
  | rReady
  /-- Code 10, bounded (R203). -/
  | rWaitHigh
  /-- Code 11, bounded (R204). -/
  | rWaitLow
  deriving DecidableEq, Repr

/-- An indexed table in ONE canonical form (`Memory.wf`): indices strictly rising, no entry listed that is 0. An
unlisted entry reads 0, the spec's reset value of every table and buffer of the block (R33 to R35, R45). `Memory 8` is
a list of `Host.Cell`. -/
abbrev Memory (w : Nat) := List (Nat × BitVec w)

/-- The host interface registers (10_state.md section 2). -/
structure HostRegs where
  /-- `CMD_LAST` (R22). -/
  cmdLast : Word
  /-- `CMD_RESP` (R23). -/
  cmdResp : Resp
  /-- `ARG0` (R24). -/
  arg0 : Word
  /-- `ARG1` (R24). -/
  arg1 : Word
  deriving DecidableEq, Repr

/-- The StateTracker (R25). -/
structure Tracker where
  /-- `last_state`. -/
  lastState : Mask
  /-- `state`. -/
  state : Mask
  /-- `just_pressed`. -/
  justPressed : Mask
  /-- `just_released`. -/
  justReleased : Mask
  deriving DecidableEq, Repr

/-- The KeyHandler's registers (10_state.md section 4). -/
structure KeyHandler where
  /-- `should_trigger` (R27). -/
  shouldTrigger : Bool
  /-- `active_layer` (R28). -/
  activeLayer : Byte
  /-- `modifier` (R29). -/
  modifier : Byte
  deriving DecidableEq, Repr

/-- The engine result registers (R30). -/
structure Results where
  /-- `jp_ret`. -/
  jpRet : Mask
  /-- `trig`. -/
  trig : Bool
  /-- `matched`. -/
  matched : Bool
  /-- `fired`. -/
  fired : Bool
  /-- `match_idx`. -/
  matchIdx : Byte
  deriving DecidableEq, Repr

/-- The key output registers (R31). -/
structure KeyOut where
  /-- `key_code`. -/
  keyCode : Byte
  /-- `key_mod`. -/
  keyMod : Byte
  /-- `fire_count`. -/
  fireCount : Byte
  /-- `sink_err`. -/
  sinkErr : Bool
  /-- `fire_pending`, the output `key_fire` (R162). -/
  firePending : Bool
  deriving DecidableEq, Repr

/-- Layer memory (R32); the indices are those of `chordIndex`, `countIndex` and `modIndex` (log 8). -/
structure LayerMem where
  /-- `LayerMem.chord(l, i)` (R33). -/
  chords : Memory 32
  /-- `LayerMem.count(l)` (R34). -/
  counts : Memory 8
  /-- `LayerMem.mod(l, b)` (R35). -/
  mods : Memory 8
  deriving DecidableEq, Repr

/-- The pad controls of one endpoint (R38). -/
structure Pads where
  /-- `clk_oe`. -/
  clkOe : Bool
  /-- `clk_o`. -/
  clkO : Bool
  /-- `dat_oe`. -/
  datOe : Bool
  /-- `dat_o`. -/
  datO : Bool
  deriving DecidableEq, Repr

/-- Both lines released: the source's "input-pullup" mode (R38). -/
def Pads.released : Pads := ⟨false, false, false, false⟩

/-- The link unit's registers (10_state.md section 7). -/
structure Link where
  /-- `LSTATE` (R37). -/
  lstate : LState
  /-- The pad controls (R38). -/
  pads : Pads
  /-- `tmo` (R41). -/
  tmo : BitVec 16
  /-- `dly` (R41). -/
  dly : BitVec 16
  /-- `w_len` (R42). -/
  wLen : Byte
  /-- `wseq` (R42). -/
  wseq : List Bool
  /-- `p` (R42). -/
  p : Nat
  /-- `r_cap` (R43). -/
  rCap : Byte
  /-- `r_count` (R43). -/
  rCount : Byte
  /-- `r_nbits` (R43). -/
  rNbits : BitVec 3
  /-- `r_sr` (R43). -/
  rSr : Byte
  /-- `r_ones` (R43). -/
  rOnes : BitVec 3
  /-- `r_tail` (R43). -/
  rTail : Bool
  /-- `RESULT` (R44). -/
  result : Result
  /-- `COUNT` (R44). -/
  count : Byte
  deriving DecidableEq, Repr

/-- The input synchronisers (R39): element `k-1` is stage `k`. -/
structure Sync where
  /-- `clk_sync[1..SYNC_STAGES]`. -/
  clk : List Bool
  /-- `dat_sync[1..SYNC_STAGES]`. -/
  dat : List Bool
  deriving DecidableEq, Repr

/-- One access on the host bus (R61). -/
inductive BusOp where
  /-- `HostRead(addr)`. -/
  | read (addr : Addr)
  /-- `HostWrite(addr, v)`. -/
  | write (addr : Addr) (v : Word)
  deriving DecidableEq, Repr

/-- What the outside world does in one cycle: the inputs R48 says a model must supply. -/
structure CycleIn where
  /-- The `rst` input (R260). -/
  rst : Bool
  /-- The host's access of the cycle: at most one (R61). -/
  bus : Option BusOp
  /-- The peer endpoint's pads (R170). -/
  peer : Pads
  /-- The sink's response (R162). -/
  sinkErrIn : Bool
  deriving DecidableEq, Repr

/-- A cycle in which the outside world does nothing: no reset, no access, the peer's pads released, no sink error. -/
def CycleIn.quiet : CycleIn := ⟨false, none, Pads.released, false⟩

/-- The model's own fields: what surrounds the block. None of them is a register of the block, and no rule of the block
reads one but `inputs` (logs 1 and 4 to 6). -/
structure Env where
  /-- The cycles to come, the next one first; past its end the outside world is quiet. Log 1. -/
  inputs : List CycleIn
  /-- The word the bus returned in the cycle just ended, if that cycle held a `HostRead` (R61). Log 6. -/
  busData : Option Word
  /-- How many contended cycles have drawn a level (R171). Log 4. -/
  draws : Nat
  /-- Cycles left in which a LINK_WRITE breaks R272's duty. Log 5. -/
  warmup : Nat
  /-- Cycles left in which a LINK_READ breaks R270's duty. Log 5. -/
  rereadWait : Nat
  /-- The faults the run is marked with, sticky and without repeats. Logs 4 and 5. -/
  marks : List Fault
  deriving DecidableEq, Repr

/-- One KCZ-LCC instance: the block's state element by element as 10_state.md R49 lists it, with the parameters it is
built with and the model's own fields. -/
structure State where
  /-- The parameters of R8; no step changes them. Log 2. -/
  cfg : Config
  /-- CMD_LAST, CMD_RESP, ARG0, ARG1. -/
  host : HostRegs
  /-- The StateTracker. -/
  tracker : Tracker
  /-- The KeyHandler. -/
  kh : KeyHandler
  /-- The engine result registers. -/
  res : Results
  /-- The key output registers. -/
  key : KeyOut
  /-- Layer memory. -/
  layers : LayerMem
  /-- The link unit. -/
  link : Link
  /-- The input synchronisers. -/
  sync : Sync
  /-- `TX_BUF` (R45), by byte index. -/
  txBuf : Memory 8
  /-- `RX_BUF` (R45), by byte index. -/
  rxBuf : Memory 8
  /-- The model's own fields. -/
  env : Env
  deriving DecidableEq, Repr

/-- The host interface registers after reset (R49). -/
def HostRegs.reset : HostRegs := ⟨0#32, .accepted, 0#32, 0#32⟩

/-- The StateTracker after reset (R49). -/
def Tracker.reset : Tracker := ⟨0#16, 0#16, 0#16, 0#16⟩

/-- The KeyHandler after reset (R49): the latch is disarmed. -/
def KeyHandler.reset : KeyHandler := ⟨false, 0#8, 0#8⟩

/-- The engine result registers after reset (R49). -/
def Results.reset : Results := ⟨0#16, false, false, false, 0#8⟩

/-- The key output registers after reset (R49, R162). -/
def KeyOut.reset : KeyOut := ⟨0#8, 0#8, 0#8, false, false⟩

/-- Layer memory after reset (R49): every entry 0. -/
def LayerMem.reset : LayerMem := ⟨[], [], []⟩

/-- The link unit after reset (R49): IDLE, both lines released, RESULT 7 NONE. -/
def Link.reset : Link where
  lstate := .idle
  pads := Pads.released
  tmo := 0#16
  dly := 0#16
  wLen := 0#8
  wseq := []
  p := 0
  rCap := 0#8
  rCount := 0#8
  rNbits := 0#3
  rSr := 0#8
  rOnes := 0#3
  rTail := false
  result := .none
  count := 0#8

/-- The synchronisers after reset (R39, R49): every stage 1. -/
def Sync.reset (c : Config) : Sync := ⟨List.replicate c.syncStages true, List.replicate c.syncStages true⟩

/-- The model's own fields at the start of a run (logs 1 and 4 to 6). -/
def Env.reset (c : Config) : Env where
  inputs := []
  busData := none
  draws := 0
  warmup := c.syncStages
  rereadWait := 0
  marks := []

/-- The block after reset, built with the parameters `c` (R49, R260). -/
def State.resetWith (c : Config) : State where
  cfg := c
  host := HostRegs.reset
  tracker := Tracker.reset
  kh := KeyHandler.reset
  res := Results.reset
  key := KeyOut.reset
  layers := LayerMem.reset
  link := Link.reset
  sync := Sync.reset c
  txBuf := []
  rxBuf := []
  env := Env.reset c

/-- The machine right after reset, with the parameter values of the spec's vectors (R8, log 2). -/
def State.reset : State := State.resetWith Config.vectors

end Sys2Proof.Machine
end

