-- ==== Sys2Proof/Machine/Flags.lean ====
section
/-! DEFINITION. The status flags of R46 as they are computed, and the codes of R37 and R230 as software reads them. -/

namespace Sys2Proof.Machine

/-- The number of a response code in `CMD_RESP.RESP` (R230). -/
def Resp.code : Resp → BitVec 4
  | .accepted => 0#4
  | .pinsBusy => 1#4
  | .illegalCommand => 8#4
  | .illegalArgument => 9#4

/-- The number of a completion code in `LINK_STATUS.RESULT` (R67, R230). -/
def Result.code : Result → BitVec 4
  | .ok => 0#4
  | .alreadyWriting => 2#4
  | .overflow => 3#4
  | .incorrectEndMarker => 4#4
  | .timeout => 5#4
  | .other => 6#4
  | .none => 7#4

/-- The code of a link state in `LINK_STATUS.LSTATE` (R37). -/
def LState.code : LState → BitVec 4
  | .idle => 0#4
  | .wWaitLow => 1#4
  | .wWaitHigh => 2#4
  | .wSetup => 3#4
  | .wHigh => 4#4
  | .rWaitReq => 8#4
  | .rReady => 9#4
  | .rWaitHigh => 10#4
  | .rWaitLow => 11#4

/-- The transaction in this state is a read, LSTATE 8 to 11 (R207). -/
def LState.isRead : LState → Bool
  | .idle => false
  | .wWaitLow => false
  | .wWaitHigh => false
  | .wSetup => false
  | .wHigh => false
  | .rWaitReq => true
  | .rReady => true
  | .rWaitHigh => true
  | .rWaitLow => true

/-- `BUSY`: `LSTATE != IDLE` (R40). -/
def State.busy (s : State) : Bool := s.link.lstate != LState.idle

/-- Press edges `state' & ~last_state'` (R143). -/
def pressEdges (new old : Mask) : Mask := new &&& ~~~old

/-- Release edges `~state' & last_state'` (R144). -/
def releaseEdges (new old : Mask) : Mask := ~~~new &&& old

/-- The tracker after an update to the combined state `new` (R141 to R144). -/
def Tracker.update (new : Mask) (t : Tracker) : Tracker where
  lastState := t.state
  state := new
  justPressed := pressEdges new t.state
  justReleased := releaseEdges new t.state

/-- The latch after a KH_UPDATE: `(jr' != 0) ? 0 : (should_trigger | (jp' != 0))` (R158). -/
def latchNext (latch : Bool) (jp jr : Mask) : Bool :=
  if jr != 0#16 then false else latch || jp != 0#16

/-- The chord predicate (R151): something was released, only trigger fingers were released, and the full trigger was
held beforehand. -/
def triggers (trigger lastState justReleased : Mask) : Bool :=
  justReleased != 0#16 &&
  (justReleased &&& trigger) == justReleased &&
  (trigger &&& lastState) == trigger

end Sys2Proof.Machine
end

