-- ==== Sys2Proof/Machine/Ops.lean ====
section
/-! DEFINITION. The named operations over the tables, the registers and the synchronisers, and the two things that take
the place of an exception (R239): a command's response and the end of a link transaction. Neither has a return (R240). -/

namespace Sys2Proof.Machine

/-- Entry `k` of a table: an unlisted entry is 0. -/
def Memory.read {w : Nat} : Memory w → Nat → BitVec w
  | [], _ => 0#w
  | (a, v) :: m, k => if a = k then v else Memory.read m k

/-- The table with `(k, v)` put before the first index above `k`. -/
def Memory.place {w : Nat} (k : Nat) (v : BitVec w) : Memory w → Memory w
  | [] => [(k, v)]
  | (a, u) :: m => if k < a then (k, v) :: (a, u) :: m else (a, u) :: Memory.place k v m

/-- The table without entry `k`. -/
def Memory.erase {w : Nat} (k : Nat) (m : Memory w) : Memory w := m.filter fun c => c.1 != k

/-- The table with entry `k` set to `v`; writing 0 removes the entry. -/
def Memory.write {w : Nat} (m : Memory w) (k : Nat) (v : BitVec w) : Memory w :=
  if v = 0#w then Memory.erase k m else Memory.place k v (Memory.erase k m)

/-- The canonical form: indices strictly rising, no entry listed that is 0. -/
def Memory.wf {w : Nat} : Memory w → Bool
  | [] => true
  | (a, v) :: m => v != 0#w && m.all (fun c => decide (a < c.1)) && Memory.wf m

/-- Where `LayerMem.chord(l, i)` stands in its table (log 8). -/
def chordIndex (layer index : Byte) : Nat := layer.toNat * 256 + index.toNat

/-- Where `LayerMem.count(l)` stands in its table (log 8). -/
def countIndex (layer : Byte) : Nat := layer.toNat

/-- Where `LayerMem.mod(l, b)` stands in its table (log 8). -/
def modIndex (layer : Byte) (bit : BitVec 4) : Nat := layer.toNat * 16 + bit.toNat

/-- `LayerMem.chord(l, i)` (R33). -/
def LayerMem.chord (m : LayerMem) (layer index : Byte) : Word := Memory.read m.chords (chordIndex layer index)

/-- `LayerMem.count(l)` (R34). -/
def LayerMem.count (m : LayerMem) (layer : Byte) : Byte := Memory.read m.counts (countIndex layer)

/-- `LayerMem.mod(l, b)` (R35). -/
def LayerMem.mod (m : LayerMem) (layer : Byte) (bit : BitVec 4) : Byte := Memory.read m.mods (modIndex layer bit)

/-- `LayerMem.chord(l, i) <- v` (R124). -/
def LayerMem.setChord (m : LayerMem) (layer index : Byte) (v : Word) : LayerMem :=
  { m with chords := Memory.write m.chords (chordIndex layer index) v }

/-- `LayerMem.count(l) <- n` (R127). -/
def LayerMem.setCount (m : LayerMem) (layer n : Byte) : LayerMem :=
  { m with counts := Memory.write m.counts (countIndex layer) n }

/-- `LayerMem.mod(l, b) <- v` (R129). -/
def LayerMem.setMod (m : LayerMem) (layer : Byte) (bit : BitVec 4) (v : Byte) : LayerMem :=
  { m with mods := Memory.write m.mods (modIndex layer bit) v }

/-- `CMD_LAST <- v` (R64). -/
def State.withCmdLast (v : Word) (s : State) : State := { s with host := { s.host with cmdLast := v } }

/-- `CMD_RESP <- r`: the response of the command of this cycle (R23, R96). A refused command does this and no more. -/
def State.respond (r : Resp) (s : State) : State := { s with host := { s.host with cmdResp := r } }

/-- `ARG0 <- v` (R66). -/
def State.withArg0 (v : Word) (s : State) : State := { s with host := { s.host with arg0 := v } }

/-- `ARG1 <- v` (R66). -/
def State.withArg1 (v : Word) (s : State) : State := { s with host := { s.host with arg1 := v } }

/-- The state with another tracker. -/
def State.withTracker (t : Tracker) (s : State) : State := { s with tracker := t }

/-- The state with another KeyHandler. -/
def State.withKh (k : KeyHandler) (s : State) : State := { s with kh := k }

/-- The state with other result registers. -/
def State.withRes (r : Results) (s : State) : State := { s with res := r }

/-- The state with other key output registers. -/
def State.withKey (k : KeyOut) (s : State) : State := { s with key := k }

/-- The state with another layer memory. -/
def State.withLayers (m : LayerMem) (s : State) : State := { s with layers := m }

/-- The state with other link registers. -/
def State.withLink (l : Link) (s : State) : State := { s with link := l }

/-- The state with other synchronisers. -/
def State.withSync (y : Sync) (s : State) : State := { s with sync := y }

/-- The state with another TX_BUF. -/
def State.withTxBuf (m : Memory 8) (s : State) : State := { s with txBuf := m }

/-- The state with another RX_BUF. -/
def State.withRxBuf (m : Memory 8) (s : State) : State := { s with rxBuf := m }

/-- The state with other fields of the model's own. -/
def State.withEnv (e : Env) (s : State) : State := { s with env := e }

/-- The outcome of a command whose operand check is `ok` (R96, step 3): ACCEPTED with the effect `f`, or
IllegalArgument with none. -/
def State.checked (ok : Bool) (f : State → State) (s : State) : Host.Outcome State Fault Refusal :=
  if ok then .next ((f s).respond .accepted) else .next (s.respond .illegalArgument)

/-- The outcome of a link command (R96, steps 3 and 4): the operand check, then the pin guard (R178). -/
def State.guarded (ok : Bool) (f : State → State) (s : State) : Host.Outcome State Fault Refusal :=
  if !ok then .next (s.respond .illegalArgument)
  else if s.busy then .next (s.respond .pinsBusy)
  else .next ((f s).respond .accepted)

/-- A sticky mark: the fault added to the marks, once. -/
def addMark (f : Fault) (marks : List Fault) : List Fault := if f ∈ marks then marks else f :: marks

/-- The run marked with `f` when `c` holds. -/
def State.markIf (c : Bool) (f : Fault) (s : State) : State :=
  if c then s.withEnv { s.env with marks := addMark f s.env.marks } else s

/-- `clk_in`, the last stage of `clk_sync` (R39, R172). -/
def State.clkIn (s : State) : Bool := s.sync.clk.getD (s.cfg.syncStages - 1) true

/-- `dat_in`, the last stage of `dat_sync` (R39, R172). -/
def State.datIn (s : State) : Bool := s.sync.dat.getD (s.cfg.syncStages - 1) true

/-- One line's synchroniser after a cycle in which its wire has the level `level` (R172): stage 1 takes the level and
every later stage the one before it. -/
def shiftStages (n : Nat) (level : Bool) (stages : List Bool) : List Bool := (level :: stages).take n

/-- The end of a link transaction with completion code `r` and byte count `n` (R200, R205, R206, R207): both lines
released, the outcome saved, LSTATE back to IDLE. -/
def State.endTransaction (r : Result) (n : Byte) (s : State) : State :=
  s.withLink { s.link with pads := Pads.released, result := r, count := n, lstate := .idle }

/-- R270's wait begins: the read that ends in this cycle ends with an error (log 5). R270 names no owner of LINK_BUF,
T_SETUP, T_HIGH and the cycles; the reader's own are taken, in a pair too. DESIGN CHOICE, log 16. -/
def State.startRereadWait (s : State) : State :=
  s.withEnv { s.env with rereadWait := s.cfg.rereadCycles }

end Sys2Proof.Machine
end

