-- ==== Sys2Proof/Machine/Configure.lean ====
section
/-! DEFINITION. The configuration commands, 40_config.md. -/

namespace Sys2Proof.Machine

/-- `NOP` (R121). -/
def execNop (s : State) : Host.Outcome State Fault Refusal := .next (s.respond .accepted)

/-- `SET_ACTIVE_LAYER layer` (R122). -/
def execSetActiveLayer (layer : Byte) (s : State) : Host.Outcome State Fault Refusal :=
  s.checked (layerOk s.cfg layer) fun s => s.withKh { s.kh with activeLayer := layer }

/-- `CHORD_WRITE layer, index` (R124): all 32 bits of ARG0 are stored. -/
def execChordWrite (layer index : Byte) (s : State) : Host.Outcome State Fault Refusal :=
  s.checked (chordOk s.cfg layer index) fun s => s.withLayers (s.layers.setChord layer index s.host.arg0)

/-- `CHORD_READ layer, index` (R126). -/
def execChordRead (layer index : Byte) (s : State) : Host.Outcome State Fault Refusal :=
  s.checked (chordOk s.cfg layer index) fun s => s.withArg0 (s.layers.chord layer index)

/-- `SET_CHORD_COUNT layer, count` (R127): no entry is cleared (R128). -/
def execSetChordCount (layer count : Byte) (s : State) : Host.Outcome State Fault Refusal :=
  s.checked (countOk s.cfg layer count) fun s => s.withLayers (s.layers.setCount layer count)

/-- `MODMAP_WRITE layer, bit, mod` (R129). -/
def execModmapWrite (layer : Byte) (bit : BitVec 4) (mod : Byte) (s : State) : Host.Outcome State Fault Refusal :=
  s.checked (layerOk s.cfg layer) fun s => s.withLayers (s.layers.setMod layer bit mod)

/-- `MODMAP_READ layer, bit` (R130). -/
def execModmapRead (layer : Byte) (bit : BitVec 4) (s : State) : Host.Outcome State Fault Refusal :=
  s.checked (layerOk s.cfg layer) fun s => s.withArg0 ((s.layers.mod layer bit).setWidth 32)

end Sys2Proof.Machine
end

