-- ==== Sys2Proof/Machine/Engine.lean ====
section
/-! DEFINITION. The chord engine, 41_engine.md: the tracker, the chord predicate, the first-match scan, the dispatch and
the three engine commands. -/

namespace Sys2Proof.Machine

/-- The tracker's step with its return value `jp_ret` (R145, R149), shared by ST_UPDATE and KH_UPDATE. -/
def State.trackerStep (new : Mask) (s : State) : State :=
  (s.withTracker (s.tracker.update new)).withRes { s.res with jpRet := pressEdges new s.tracker.state }

/-- `ST_UPDATE left, right` (R145). -/
def execStUpdate (left right : Byte) (s : State) : Host.Outcome State Fault Refusal :=
  .next ((s.trackerStep (combine left right)).respond .accepted)

/-- `EVAL_TRIGGERS` (R150). -/
def execEvalTriggers (s : State) : Host.Outcome State Fault Refusal :=
  .next ((s.withRes { s.res with
    trig := triggers (evalTrigger s.host.arg0) (evalLast s.host.arg0) (evalReleased s.host.arg1) }).respond .accepted)

/-- The modifier of a layer for the held switches `held` (R156): the OR of `LayerMem.mod(l, b)` over the positions `b`
in 0..15 that are set. -/
def LayerMem.modifier (m : LayerMem) (layer : Byte) (held : Mask) : Byte :=
  (List.range 16).foldl
    (fun acc b => if held.getLsbD b then acc ||| m.mod layer (BitVec.ofNat 4 b) else acc) 0#8

/-- The match of a layer (R154): the lowest index below the layer's count whose chord triggers, or none. -/
def LayerMem.firstMatch (m : LayerMem) (layer : Byte) (lastState justReleased : Mask) : Option Byte :=
  ((List.range (m.count layer).toNat).map (BitVec.ofNat 8)).find? fun i =>
    triggers (entryTrigger (m.chord layer i)) lastState justReleased

/-- Steps 3 of KH_UPDATE (R157): the scan, gated by the latch before this update. -/
def State.scan (s : State) (lastState justReleased : Mask) : Option Byte :=
  if s.kh.shouldTrigger then s.layers.firstMatch s.kh.activeLayer lastState justReleased else none

/-- The dispatch of a `Key` action to the sink port (R161). -/
def KeyOut.dispatch (code mod : Byte) (k : KeyOut) : KeyOut :=
  { k with keyCode := code, keyMod := mod, fireCount := k.fireCount + 1#8, firePending := true }

/-- What a KH_UPDATE writes for its match (R159, R160, R161): the result registers, and the key output registers when
the matched chord's action is `Key`. -/
def State.applyMatch (m : Option Byte) (mod : Byte) (s : State) : State :=
  match m with
  | none => s.withRes { s.res with matched := false, fired := false, matchIdx := 0#8 }
  | some i =>
    let action := entryAction (s.layers.chord s.kh.activeLayer i)
    if actionIsKey action then
      (s.withRes { s.res with matched := true, fired := true, matchIdx := i }).withKey
        (s.key.dispatch (actionKeycode action) mod)
    else
      s.withRes { s.res with matched := true, fired := false, matchIdx := i }

/-- The state after the KH_UPDATE of the combined mask `new` (R155). The match, the modifier and the latch are computed
from the values at the start of the cycle. -/
def State.khStep (new : Mask) (s : State) : State :=
  let jp := pressEdges new s.tracker.state
  let jr := releaseEdges new s.tracker.state
  let mod := s.layers.modifier s.kh.activeLayer new
  let m := s.scan s.tracker.state jr
  ((s.trackerStep new).applyMatch m mod).withKh
    { s.kh with shouldTrigger := latchNext s.kh.shouldTrigger jp jr, modifier := mod }

/-- `KH_UPDATE left, right` (R155). -/
def execKhUpdate (left right : Byte) (s : State) : Host.Outcome State Fault Refusal :=
  .next ((s.khStep (combine left right)).respond .accepted)

end Sys2Proof.Machine
end

