-- ==== Sys2Proof/Machine/Frame.lean ====
section
/-! DEFINITION. The wire frame: bit order, stuffing, the end marker (30_encoding.md R107, 42_link.md R174, R175). -/

namespace Sys2Proof.Machine

/-- `bits(b)`: the 8 bits of a byte in wire order (R174). -/
def byteBits (o : BitOrder) (b : Byte) : List Bool :=
  match o with
  | .msbFirst => (List.range 8).map fun i => b.getLsbD (7 - i)
  | .lsbFirst => (List.range 8).map fun i => b.getLsbD i

/-- The stuffed sequence of a payload, `ones` ones having just gone out (R175): after five, a 0 goes out. -/
def stuffFrom (ones : Nat) : List Bool → List Bool
  | [] => []
  | x :: u =>
    let n := if x then ones + 1 else 0
    if n = 5 then x :: false :: stuffFrom 0 u else x :: stuffFrom n u

/-- `stuff(u)` (R175). -/
def stuff (u : List Bool) : List Bool := stuffFrom 0 u

/-- `FLAG`, the end marker `0111_1110`, never stuffed (R8, R107). -/
def endMarker : List Bool := [false, true, true, true, true, true, true, false]

/-- `frame(d)` (R107, R175). -/
def frame (o : BitOrder) (d : List Byte) : List Bool := stuff (d.flatMap (byteBits o)) ++ endMarker

/-- The payload of a LINK_WRITE: `TX_BUF[0 .. LEN-1]` (R180, R182). -/
def State.payload (s : State) (len : Byte) : List Byte := (List.range len.toNat).map (Memory.read s.txBuf)

end Sys2Proof.Machine
end

