-- ==== Sys2Proof/Machine/LinkCommands.lean ====
section
/-! DEFINITION. The two link commands, LINK_WRITE (R180 to R182) and LINK_READ (R186), 42_link.md. -/

namespace Sys2Proof.Machine

/-- A LINK_WRITE accepted while `clk_in = 1` (R180): the frame is fixed, the clock is driven low. -/
def Link.startWrite (len : Byte) (seq : List Bool) (l : Link) : Link :=
  { l with
    wLen := len, wseq := seq, p := 0, tmo := 0#16
    pads := { l.pads with clkOe := true, clkO := false }
    result := .none, count := 0#8, lstate := .wWaitLow }

/-- A LINK_WRITE accepted while `clk_in = 0` (R181): it completes at once with AlreadyWriting. -/
def Link.alreadyWriting (l : Link) : Link := { l with result := .alreadyWriting, count := 0#8 }

/-- An accepted LINK_READ (R186): no pad is driven. -/
def Link.startRead (cap : Byte) (l : Link) : Link :=
  { l with
    rCap := cap, rCount := 0#8, rNbits := 0#3, rSr := 0#8, rOnes := 0#3, rTail := false
    tmo := 0#16, result := .none, count := 0#8, lstate := .rWaitReq }

/-- What an accepted LINK_WRITE does (R180, R181); the run is marked where it breaks R272's duty. -/
def State.acceptWrite (len : Byte) (s : State) : State :=
  let t := s.markIf (decide (0 < s.env.warmup)) .earlyLinkWrite
  if s.clkIn then t.withLink (s.link.startWrite len (frame s.cfg.bitOrder (s.payload len)))
  else t.withLink s.link.alreadyWriting

/-- What an accepted LINK_READ does (R186); the run is marked where it breaks R270's duty. -/
def State.acceptRead (cap : Byte) (s : State) : State :=
  (s.markIf (decide (0 < s.env.rereadWait)) .earlyLinkRead).withLink (s.link.startRead cap)

/-- `LINK_WRITE len` (R180). -/
def execLinkWrite (len : Byte) (s : State) : Host.Outcome State Fault Refusal :=
  s.guarded (lengthOk s.cfg len) (State.acceptWrite len)

/-- `LINK_READ cap` (R186). -/
def execLinkRead (cap : Byte) (s : State) : Host.Outcome State Fault Refusal :=
  s.guarded (lengthOk s.cfg cap) (State.acceptRead cap)

end Sys2Proof.Machine
end

