-- ==== Sys2Proof/Machine/Dispatch.lean ====
section
/-! DEFINITION. One arm per command of the opcode map (R97), each a call of its meaning. -/

namespace Sys2Proof.Machine

/-- The effect of a decoded command in the cycle of its `CMD` write, from the range check of R96 on. -/
def exec (i : Instr) (s : State) : Host.Outcome State Fault Refusal :=
  match i with
  | .nop => Sys2Proof.Machine.execNop s
  | .linkWrite len => Sys2Proof.Machine.execLinkWrite len s
  | .linkRead cap => Sys2Proof.Machine.execLinkRead cap s
  | .stUpdate left right => Sys2Proof.Machine.execStUpdate left right s
  | .khUpdate left right => Sys2Proof.Machine.execKhUpdate left right s
  | .evalTriggers => Sys2Proof.Machine.execEvalTriggers s
  | .setActiveLayer layer => Sys2Proof.Machine.execSetActiveLayer layer s
  | .chordWrite layer index => Sys2Proof.Machine.execChordWrite layer index s
  | .chordRead layer index => Sys2Proof.Machine.execChordRead layer index s
  | .setChordCount layer count => Sys2Proof.Machine.execSetChordCount layer count s
  | .modmapWrite layer bit mod => Sys2Proof.Machine.execModmapWrite layer bit mod s
  | .modmapRead layer bit => Sys2Proof.Machine.execModmapRead layer bit s

end Sys2Proof.Machine
end

