-- ==== Sys2Proof/Machine/LinkFsm.lean ====
section
/-! DEFINITION. The link state machine and the destuffer, 42_link.md R187 to R207: what the link unit does by itself in
a cycle at whose start it is busy. -/

namespace Sys2Proof.Machine

/-- `byte_done(b)` (R190): stored below the capacity, counted up to 255. -/
def State.byteDone (b : Byte) (s : State) : State :=
  let stored := if s.link.rCount.toNat < s.link.rCap.toNat
    then s.withRxBuf (Memory.write s.rxBuf s.link.rCount.toNat b) else s
  if s.link.rCount.toNat < 255 then stored.withLink { s.link with rCount := s.link.rCount + 1#8 } else stored

/-- The shift register with the sampled bit taken in (R187). -/
def shiftIn (o : BitOrder) (x : Bool) (sr : Byte) : Byte :=
  match o with
  | .msbFirst => (sr <<< 1) ||| (BitVec.ofBool x).setWidth 8
  | .lsbFirst => (sr >>> 1) ||| ((BitVec.ofBool x).setWidth 8 <<< 7)

/-- The reader's registers with a data bit taken into the shift register and the run of ones (R187). -/
def Link.shiftBit (o : BitOrder) (x : Bool) (l : Link) : Link :=
  { l with rSr := shiftIn o x l.rSr, rOnes := if x then l.rOnes + 1#3 else 0#3 }

/-- The number of bits in the partial byte set. -/
def State.setNbits (n : BitVec 3) (s : State) : State := s.withLink { s.link with rNbits := n }

/-- A data bit enters the partial byte (R187, last branch); the eighth completes the byte. -/
def State.takeBit (x : Bool) (s : State) : State :=
  let t := s.withLink (s.link.shiftBit s.cfg.bitOrder x)
  if s.link.rNbits = 7#3 then (t.byteDone t.link.rSr).setNbits 0#3
  else t.setNbits (s.link.rNbits + 1#3)

/-- `destuff(x)` (R187): the state after the sampled bit, and the code the read completes with, if it does. -/
def State.destuff (x : Bool) (s : State) : State × Option Result :=
  if s.link.rTail then
    if x then (s, some .incorrectEndMarker)
    else (s, some (if s.link.rCap.toNat < s.link.rCount.toNat then .overflow else .ok))
  else if s.link.rOnes = 5#3 then
    if x then (s.withLink { s.link with rTail := true }, none)
    else (s.withLink { s.link with rOnes := 0#3 }, none)
  else (s.takeBit x, none)

/-- A sampled bit sequence destuffed up to the bit that completes the read, if one does (R187). -/
def State.destuffAll : List Bool → State → State × Option Result
  | [], s => (s, none)
  | x :: xs, s =>
    match s.destuff x with
    | (t, some e) => (t, some e)
    | (t, none) => State.destuffAll xs t

/-- `complete(e)` of a read (R205). -/
def State.completeRead (e : Result) (s : State) : State :=
  let t := s.endTransaction e s.link.rCount
  if e = .ok then t else t.startRereadWait

/-- `fail(Timeout)` (R207): COUNT is `r_count` in a read and 0 in a write. -/
def State.failTimeout (s : State) : State :=
  if s.link.lstate.isRead then (s.endTransaction .timeout s.link.rCount).startRereadWait
  else s.endTransaction .timeout 0#8

/-- A bounded wait (R194): leave when the condition holds, fail at the TIMEOUT-th failed poll, else count it. -/
def State.boundedWait (cond : Bool) (leave : State → State) (s : State) : State :=
  if cond then leave s
  else if s.link.tmo.toNat + 1 = s.cfg.timeout then s.failTimeout
  else s.withLink { s.link with tmo := s.link.tmo + 1#16 }

/-- A fixed-length phase of `n` cycles (R198, R199, R202): leave in its last cycle, else count the cycle. -/
def State.fixedPhase (n : Nat) (leave : State → State) (s : State) : State :=
  if s.link.dly.toNat + 1 = n then leave s
  else s.withLink { s.link with dly := s.link.dly + 1#16 }

/-- The bit `wseq[k]`. -/
def Link.bitAt (l : Link) (k : Nat) : Bool := l.wseq.getD k true

/-- `W_WAIT_LOW` left (R196). -/
def State.leaveWaitLow (s : State) : State := s.withLink { s.link with tmo := 0#16, lstate := .wWaitHigh }

/-- `W_WAIT_HIGH` left (R197): the first bit goes on the data wire. -/
def State.leaveWaitHigh (s : State) : State :=
  s.withLink { s.link with
    pads := { s.link.pads with datOe := true, datO := s.link.bitAt 0 }, dly := 0#16, lstate := .wSetup }

/-- `W_SETUP` left (R198): the clock rises. -/
def State.leaveSetup (s : State) : State :=
  s.withLink { s.link with pads := { s.link.pads with clkO := true }, dly := 0#16, lstate := .wHigh }

/-- `W_HIGH` left (R199, R200): the next bit at the clock's fall, or the writer's completion after the last bit. -/
def State.leaveHigh (s : State) : State :=
  if s.link.p + 1 < s.link.wseq.length then
    s.withLink { s.link with
      p := s.link.p + 1
      pads := { s.link.pads with clkO := false, datO := s.link.bitAt (s.link.p + 1) }
      dly := 0#16, lstate := .wSetup }
  else s.endTransaction .ok s.link.wLen

/-- `R_WAIT_REQ` left (R201): the ready pulse begins. -/
def State.leaveWaitReq (s : State) : State :=
  s.withLink { s.link with
    pads := { s.link.pads with datOe := true, datO := false }, dly := 0#16, lstate := .rReady }

/-- `R_READY` left (R202): the data wire is released. -/
def State.leaveReady (s : State) : State :=
  s.withLink { s.link with
    pads := { s.link.pads with datOe := false, datO := false }, tmo := 0#16, lstate := .rWaitHigh }

/-- `R_WAIT_HIGH` left (R203): a bit is sampled and destuffed. -/
def State.sampleBit (s : State) : State :=
  match s.destuff s.datIn with
  | (t, some e) => t.completeRead e
  | (t, none) => t.withLink { t.link with tmo := 0#16, lstate := .rWaitLow }

/-- `R_WAIT_LOW` left (R204). -/
def State.leaveClockHigh (s : State) : State := s.withLink { s.link with tmo := 0#16, lstate := .rWaitHigh }

/-- One cycle of the link state machine (R195 to R207), on the values at the start of the cycle. -/
def State.linkTick (s : State) : State :=
  match s.link.lstate with
  | .idle => s
  | .wWaitLow => s.boundedWait (!s.datIn) State.leaveWaitLow
  | .wWaitHigh => s.boundedWait s.datIn State.leaveWaitHigh
  | .wSetup => s.fixedPhase s.cfg.tSetup State.leaveSetup
  | .wHigh => s.fixedPhase s.cfg.tHigh State.leaveHigh
  | .rWaitReq => s.boundedWait (!s.clkIn) State.leaveWaitReq
  | .rReady => s.fixedPhase s.cfg.tReady State.leaveReady
  | .rWaitHigh => s.boundedWait s.clkIn State.sampleBit
  | .rWaitLow => s.boundedWait (!s.clkIn) State.leaveClockHigh

end Sys2Proof.Machine
end

