-- ==== Sys2Proof/Machine/Registers.lean ====
section
/-! DEFINITION. The host register window, 20_memory.md R60 to R83: the register map, what a read returns, and the
buffer words. The writes stand in Cycle.lean, since a write to CMD executes a command. -/

namespace Sys2Proof.Machine

/-- A word of the register map (R63). -/
inductive Reg where
  /-- `CMD`, 0x000 (R64). -/
  | cmd
  /-- `CMD_RESP`, 0x004 (R65). -/
  | cmdResp
  /-- `ARG0`, 0x008 (R66). -/
  | arg0
  /-- `ARG1`, 0x00C (R66). -/
  | arg1
  /-- `LINK_STATUS`, 0x010 (R67). -/
  | linkStatus
  /-- `LINE_STATE`, 0x014 (R68). -/
  | lineState
  /-- `PARAMS`, 0x018 (R69). -/
  | params
  /-- `ST_STATE`, 0x020 (R70). -/
  | stState
  /-- `ST_EDGES`, 0x024 (R71). -/
  | stEdges
  /-- `KH_STATUS`, 0x028 (R72). -/
  | khStatus
  /-- `KEY_OUT`, 0x02C (R73). -/
  | keyOut
  /-- `ENGINE_RESULT`, 0x030 (R74). -/
  | engineResult
  /-- Word `k` of the TX_BUF window, 0x100 + 4k (R75). -/
  | txWord (k : Nat)
  /-- Word `k` of the RX_BUF window, 0x200 + 4k (R76). -/
  | rxWord (k : Nat)
  /-- A reserved offset (R79). -/
  | reserved
  deriving DecidableEq, Repr

/-- The word at a byte offset of the window (R63); `addr[1:0]` is ignored (R62). -/
def Reg.ofAddr (a : Addr) : Reg :=
  let k := (a &&& 0xFFC#12).toNat / 4
  if k = 0 then .cmd
  else if k = 1 then .cmdResp
  else if k = 2 then .arg0
  else if k = 3 then .arg1
  else if k = 4 then .linkStatus
  else if k = 5 then .lineState
  else if k = 6 then .params
  else if k = 8 then .stState
  else if k = 9 then .stEdges
  else if k = 10 then .khStatus
  else if k = 11 then .keyOut
  else if k = 12 then .engineResult
  else if 64 ≤ k ∧ k < 128 then .txWord (k - 64)
  else if 128 ≤ k ∧ k < 192 then .rxWord (k - 128)
  else .reserved

/-- Byte `i` of a buffer of `n` bytes, 0 at and above `n` (R75, R76). -/
def bufferByte (n : Nat) (m : Memory 8) (i : Nat) : Byte := if i < n then Memory.read m i else 0#8

/-- Word `k` of a buffer window: bytes `4k .. 4k+3`, little-endian (R75, R76, R83). -/
def bufferWord (n : Nat) (m : Memory 8) (k : Nat) : Word :=
  bufferByte n m (4 * k + 3) ++ bufferByte n m (4 * k + 2) ++ bufferByte n m (4 * k + 1) ++ bufferByte n m (4 * k)

/-- Byte `i` of a buffer of `n` bytes stored; dropped at and above `n` (R75). -/
def storeByte (n : Nat) (m : Memory 8) (i : Nat) (b : Byte) : Memory 8 := if i < n then Memory.write m i b else m

/-- Word `k` of a buffer window stored, byte `4k+j` from bits `[8j+7 : 8j]` (R75). -/
def storeWord (n : Nat) (m : Memory 8) (k : Nat) (v : Word) : Memory 8 :=
  (List.range 4).foldl (fun m j => storeByte n m (4 * k + j) (v.extractLsb' (8 * j) 8)) m

/-- One bit of a register's word. -/
def oneBit (b : Bool) : BitVec 1 := BitVec.ofBool b

/-- `LINK_STATUS` (R67): `{0, LSTATE, COUNT, RESULT, 0, BUSY}`. -/
def State.linkStatus (s : State) : Word :=
  0#12 ++ s.link.lstate.code ++ s.link.count ++ s.link.result.code ++ 0#3 ++ oneBit s.busy

/-- `LINE_STATE` (R68): `{0, DAT_O, DAT_OE, CLK_O, CLK_OE, DAT_IN, CLK_IN}`. -/
def State.lineState (s : State) : Word :=
  0#26 ++ oneBit s.link.pads.datO ++ oneBit s.link.pads.datOe ++ oneBit s.link.pads.clkO ++
    oneBit s.link.pads.clkOe ++ oneBit s.datIn ++ oneBit s.clkIn

/-- `BIT_ORDER` in PARAMS: 0 MSB_FIRST, 1 LSB_FIRST (R69). -/
def bitOrderBit : BitOrder → BitVec 1
  | .msbFirst => 0#1
  | .lsbFirst => 1#1

/-- `PARAMS` (R69): `{REV = 1, SYNC_STAGES, BIT_ORDER, N_LAYERS, MAX_CHORDS, LINK_BUF}`. -/
def paramsWord (c : Config) : Word :=
  1#4 ++ BitVec.ofNat 3 c.syncStages ++ bitOrderBit c.bitOrder ++ BitVec.ofNat 8 c.nLayers ++
    BitVec.ofNat 8 c.maxChords ++ BitVec.ofNat 8 c.linkBuf

/-- `KH_STATUS` (R72): `{0, MODIFIER, ACTIVE_LAYER, 0, SHOULD_TRIGGER}`. -/
def State.khStatus (s : State) : Word :=
  0#8 ++ s.kh.modifier ++ s.kh.activeLayer ++ 0#7 ++ oneBit s.kh.shouldTrigger

/-- `KEY_OUT` (R73): `{0, SINK_ERR, FIRE_COUNT, MOD, KEYCODE}`. -/
def State.keyOutWord (s : State) : Word :=
  0#7 ++ oneBit s.key.sinkErr ++ s.key.fireCount ++ s.key.keyMod ++ s.key.keyCode

/-- `ENGINE_RESULT` (R74): `{MATCH_INDEX, 0, FIRED, MATCHED, TRIG, JP}`. -/
def State.engineResult (s : State) : Word :=
  s.res.matchIdx ++ 0#5 ++ oneBit s.res.fired ++ oneBit s.res.matched ++ oneBit s.res.trig ++ s.res.jpRet

/-- What a read of a word of the register map returns (R64 to R76, R79). -/
def State.readReg (s : State) : Reg → Word
  | .cmd => s.host.cmdLast
  | .cmdResp => 0#28 ++ s.host.cmdResp.code
  | .arg0 => s.host.arg0
  | .arg1 => s.host.arg1
  | .linkStatus => s.linkStatus
  | .lineState => s.lineState
  | .params => paramsWord s.cfg
  | .stState => s.tracker.lastState ++ s.tracker.state
  | .stEdges => s.tracker.justReleased ++ s.tracker.justPressed
  | .khStatus => s.khStatus
  | .keyOut => s.keyOutWord
  | .engineResult => s.engineResult
  | .txWord k => bufferWord s.cfg.linkBuf s.txBuf k
  | .rxWord k => bufferWord s.cfg.linkBuf s.rxBuf k
  | .reserved => 0#32

/-- `HostRead(addr)`: a word computed from the state at the start of the cycle; it changes nothing (R61, R81). -/
def State.hostRead (s : State) (a : Addr) : Word := s.readReg (Reg.ofAddr a)

end Sys2Proof.Machine
end

