-- ==== Sys2Proof/Machine/Wires.lean ====
section
/-! DEFINITION. The two wires between the endpoints: wire resolution and contention (42_link.md R170, R171). -/

namespace Sys2Proof.Machine

/-- The level of a wire from its two pads (R170): the pull-up's 1 if none drives it, the common value of those that do,
`none` when one drives 0 and the other 1 (R171). -/
def wireLevel (oeA oA oeB oB : Bool) : Option Bool :=
  match oeA, oeB with
  | false, false => some true
  | true, false => some oA
  | false, true => some oB
  | true, true => if oA = oB then some oA else none

/-- The clock wire between two endpoints. -/
def clockWire (a b : Pads) : Option Bool := wireLevel a.clkOe a.clkO b.clkOe b.clkO

/-- The data wire between two endpoints. -/
def dataWire (a b : Pads) : Option Bool := wireLevel a.datOe a.datO b.datOe b.datO

/-- The levels of both wires in one cycle. -/
structure Levels where
  /-- `level(clock)`. -/
  clk : Bool
  /-- `level(data)`. -/
  dat : Bool
  deriving DecidableEq, Repr

/-- The levels of both wires in a cycle; a contended wire has the free value of the `n`-th draw (R171). -/
def wireLevels (a b : Pads) (n : Nat) : Levels where
  clk := (clockWire a b).getD (Config.clkDraw n)
  dat := (dataWire a b).getD (Config.datDraw n)

/-- Some wire is contended (R171). -/
def contended (a b : Pads) : Bool := (clockWire a b).isNone || (dataWire a b).isNone

/-- The number of draws taken after the cycle: one more if a wire was contended. -/
def drawsAfter (a b : Pads) (n : Nat) : Nat := if contended a b then n + 1 else n

/-- The marks after the cycle: `wire_contention` of each contended wire, sticky (R171). -/
def marksAfter (a b : Pads) (marks : List Fault) : List Fault :=
  let m := if (clockWire a b).isNone then addMark .clkContention marks else marks
  if (dataWire a b).isNone then addMark .datContention m else m

end Sys2Proof.Machine
end

