-- ==== Sys2Proof/Machine/Cycle.lean ====
section
/-! DEFINITION. One clock cycle of an instance whose wires have given levels: reset (R260), the host access with the
command it may issue (R61, R64, R82, R96), the sink port (R162), the link state machine and the synchronisers (R172).
Everything reads the values at the start of the cycle (R12); log 7 says how the order below keeps that. -/

namespace Sys2Proof.Machine

/-- A next state carried on by `f`; a fault or a refusal as it is. -/
def onNext (o : Host.Outcome State Fault Refusal) (f : State → State) : Host.Outcome State Fault Refusal :=
  match o with
  | .next s => .next (f s)
  | .fault r => .fault r
  | .refused r => .refused r

/-- The response to a word that does not decode (R96, steps 1 and 2). -/
def errorResponse : DecodeError → Resp
  | .illegalCommand => .illegalCommand
  | .illegalArgument => .illegalArgument

/-- A write of `v` to CMD (R64, R96): CMD_LAST takes the word; the command executes, or the response says why not. -/
def State.issueCommand (v : Word) (s : State) : Host.Outcome State Fault Refusal :=
  match decode v with
  | .ok i => exec i (s.withCmdLast v)
  | .error e => .next ((s.withCmdLast v).respond (errorResponse e))

/-- A write to word `k` of the TX_BUF window (R75), ignored while BUSY (R77). -/
def State.storeTx (k : Nat) (v : Word) (s : State) : State :=
  if s.busy then s else s.withTxBuf (storeWord s.cfg.linkBuf s.txBuf k v)

/-- `HostWrite(addr, v)` (R61, R82): writes to read-only registers and reserved offsets are ignored (R79, R80). -/
def State.hostWrite (a : Addr) (v : Word) (s : State) : Host.Outcome State Fault Refusal :=
  match Reg.ofAddr a with
  | .cmd => s.issueCommand v
  | .cmdResp => .next s
  | .arg0 => .next (s.withArg0 v)
  | .arg1 => .next (s.withArg1 v)
  | .linkStatus => .next s
  | .lineState => .next s
  | .params => .next s
  | .stState => .next s
  | .stEdges => .next s
  | .khStatus => .next s
  | .keyOut => .next s
  | .engineResult => .next s
  | .txWord k => .next (s.storeTx k v)
  | .rxWord _ => .next s
  | .reserved => .next s

/-- What the host access of the cycle writes: nothing for a read or for no access (R81). -/
def State.hostAccess (op : Option BusOp) (s : State) : Host.Outcome State Fault Refusal :=
  match op with
  | none => .next s
  | some (.read _) => .next s
  | some (.write a v) => s.hostWrite a v

/-- The word the bus returns for the access of the cycle (R61). -/
def State.busRead (op : Option BusOp) (s : State) : Option Word :=
  match op with
  | none => none
  | some (.read a) => some (s.hostRead a)
  | some (.write _ _) => none

/-- The model's own fields as a cycle begins: its input is taken off the queue, its bus word is set. -/
def State.openEnv (inp : CycleIn) (s : State) : Env :=
  { s.env with inputs := s.env.inputs.tail, busData := s.busRead inp.bus }

/-- The cycle begins: `fire_pending <- 0` unless a dispatch of this cycle sets it again (R162). -/
def State.beginCycle (inp : CycleIn) (s : State) : State :=
  (s.withKey { s.key with firePending := false }).withEnv (s.openEnv inp)

/-- `sink_err <- sink_err_in` at the end of a cycle in which `key_fire` was 1 (R162). -/
def State.sampleSink (fire err : Bool) (s : State) : State :=
  if fire then s.withKey { s.key with sinkErr := err } else s

/-- One cycle of the waits of R270 and R272 has passed. -/
def State.countDown (s : State) : State :=
  s.withEnv { s.env with warmup := s.env.warmup - 1, rereadWait := s.env.rereadWait - 1 }

/-- The synchronisers take the wires' levels (R172). -/
def State.shiftSync (lv : Levels) (s : State) : State :=
  s.withSync ⟨shiftStages s.cfg.syncStages lv.clk s.sync.clk, shiftStages s.cfg.syncStages lv.dat s.sync.dat⟩

/-- The cycle ends. `fire` and `busy` are `key_fire` and BUSY at its start: a transaction that this cycle's command
starts takes its first FSM cycle in the next (R173, R238). -/
def State.endCycle (inp : CycleIn) (lv : Levels) (fire busy : Bool) (s : State) : State :=
  let t := (s.sampleSink fire inp.sinkErrIn).countDown
  (if busy then t.linkTick else t).shiftSync lv

/-- A cycle with `rst = 1` (R260): the block takes its reset values, and the host's write has no effect. The parameters
and the model's own fields are not the block's; they go on (log 5). -/
def State.resetCycle (inp : CycleIn) (s : State) : State :=
  (State.resetWith s.cfg).withEnv
    { s.openEnv inp with warmup := s.cfg.syncStages, rereadWait := s.env.rereadWait - 1 }

/-- One clock cycle of an instance with the inputs `inp` and the wire levels `lv`. -/
def State.clockCycle (inp : CycleIn) (lv : Levels) (s : State) : Host.Outcome State Fault Refusal :=
  if inp.rst then .next (s.resetCycle inp)
  else onNext ((s.beginCycle inp).hostAccess inp.bus) (State.endCycle inp lv s.key.firePending s.busy)

/-- The inputs of the next cycle: the queue's first entry, or a quiet cycle past its end (log 1). -/
def State.nextInput (s : State) : CycleIn := s.env.inputs.headD CycleIn.quiet

/-- The wires of a cycle resolved against the pads `peer` (R170, R171): contention takes a draw and marks the run. -/
def State.resolveWires (peer : Pads) (s : State) : State :=
  s.withEnv { s.env with
    draws := drawsAfter s.link.pads peer s.env.draws
    marks := marksAfter s.link.pads peer s.env.marks }

/-- One cycle of an instance whose peer's pads are an input. -/
def State.cycle (s : State) : Host.Outcome State Fault Refusal :=
  (s.resolveWires s.nextInput.peer).clockCycle s.nextInput
    (wireLevels s.link.pads s.nextInput.peer s.env.draws)

/-- The inputs of a cycle in which the host writes the command word `v` and nothing else happens. -/
def CycleIn.command (v : Word) : CycleIn := { CycleIn.quiet with bus := some (.write 0x000#12 v) }

/-- The state whose next cycle begins with the inputs `inp`. -/
def State.withNextInput (inp : CycleIn) (s : State) : State :=
  s.withEnv { s.env with inputs := inp :: s.env.inputs }

end Sys2Proof.Machine
end

