-- ==== Sys2Proof/Machine/Step.lean ====
section
/-! DEFINITION. The step: one cycle of `clk` (R13). The block fetches nothing (R21); what plays the role of a fetch is
the host's write of a command word to CMD, which the queue of inputs holds (log 1). -/

namespace Sys2Proof.Machine

/-- One cycle of the machine; a configuration outside R8's ranges is refused (R9, log 3). -/
def step (s : State) : Host.Outcome State Fault Refusal :=
  if s.cfg.inRange then s.cycle else .refused .parameters

/-- The state in whose next cycle the host writes to CMD the command word that the low `nbits` bits of `w` hold. -/
def State.withFetchWord (s : State) (nbits w : Nat) : State :=
  s.withNextInput (CycleIn.command (tableWord nbits w))

end Sys2Proof.Machine
end

