-- ==== Sys2Proof/Machine/Pair.lean ====
section
/-! DEFINITION. The keyboard link: two KCZ-LCC instances on the two wires (42_link.md R213, R214; 60_exceptions.md R245),
in lockstep on one clock and one reset, or on two clocks (70_reset_and_hazards.md R276). It is built of the same cycle as
`step`; an instance's peer pads are the other instance's own, and the peer pads in its queue of inputs are not read.
The model refuses what R9 puts outside its admitted set (logs 10, 15 and 17). -/

namespace Sys2Proof.Machine

/-- Two instances and the composition's own state: the draws and the sticky `wire_contention` marks (R171, R213). -/
structure Pair where
  /-- Endpoint A. -/
  a : State
  /-- Endpoint B. -/
  b : State
  /-- How many contended cycles have drawn a level. -/
  draws : Nat
  /-- The wires marked with contention. -/
  marks : List Fault
  deriving DecidableEq, Repr

/-- Which instances have a clock edge: in lockstep always both (R213), on two clocks either or both (R276). -/
inductive Tick where
  /-- Only A's clock ticks. -/
  | onlyA
  /-- Only B's clock ticks. -/
  | onlyB
  /-- Both clocks tick together. -/
  | both
  deriving DecidableEq, Repr

/-- Both endpoints after reset. -/
def Pair.reset (ca cb : Config) : Pair := ⟨State.resetWith ca, State.resetWith cb, 0, []⟩

/-- The levels of the wires between the two endpoints now (R170). -/
def Pair.levels (p : Pair) : Levels := wireLevels p.a.link.pads p.b.link.pads p.draws

/-- The composition's own state after the wires are resolved once (R171). -/
def Pair.resolve (p : Pair) : Pair :=
  { p with
    draws := drawsAfter p.a.link.pads p.b.link.pads p.draws
    marks := marksAfter p.a.link.pads p.b.link.pads p.marks }

/-- One instance's cycle on the given levels. -/
def State.clockOn (lv : Levels) (s : State) : Host.Outcome State Fault Refusal := s.clockCycle s.nextInput lv

/-- The pair with A replaced by what its cycle answers. -/
def Pair.withA (p : Pair) (o : Host.Outcome State Fault Refusal) : Host.Outcome Pair Fault Refusal :=
  match o with
  | .next s => .next { p with a := s }
  | .fault r => .fault r
  | .refused r => .refused r

/-- The pair with B replaced by what its cycle answers. -/
def Pair.withB (p : Pair) (o : Host.Outcome State Fault Refusal) : Host.Outcome Pair Fault Refusal :=
  match o with
  | .next s => .next { p with b := s }
  | .fault r => .fault r
  | .refused r => .refused r

/-- The pair with both replaced by what their cycles answer. -/
def Pair.withBoth (p : Pair) (oa ob : Host.Outcome State Fault Refusal) : Host.Outcome Pair Fault Refusal :=
  match oa, ob with
  | .next sa, .next sb => .next { p with a := sa, b := sb }
  | .fault r, _ => .fault r
  | .refused r, _ => .refused r
  | .next _, .fault r => .fault r
  | .next _, .refused r => .refused r

/-- The clock edges of `w`, whatever the parameters of the two endpoints and with each endpoint's own `rst`: the edge that
the compositions below share. R267's mismatched pair and a reset of one endpoint alone (R261) run here. -/
def Pair.edge (w : Tick) (p : Pair) : Host.Outcome Pair Fault Refusal :=
  match w with
  | .onlyA => p.resolve.withA (p.a.clockOn p.levels)
  | .onlyB => p.resolve.withB (p.b.clockOn p.levels)
  | .both => p.resolve.withBoth (p.a.clockOn p.levels) (p.b.clockOn p.levels)

/-- The pair refused as `r` where `ok` fails. -/
def Pair.unless (ok : Bool) (r : Refusal) (o : Host.Outcome Pair Fault Refusal) : Host.Outcome Pair Fault Refusal :=
  if ok then o else .refused r

/-- What both compositions ask of a pair: parameters in R8's ranges and the same BIT_ORDER (R9, R267). -/
def Pair.compatible (p : Pair) (o : Host.Outcome Pair Fault Refusal) : Host.Outcome Pair Fault Refusal :=
  Pair.unless (p.a.cfg.inRange && p.b.cfg.inRange) .parameters
    (Pair.unless (decide (p.a.cfg.bitOrder = p.b.cfg.bitOrder)) .bitOrderMismatch o)

/-- The level of the one `rst` of the lockstep composition in the next cycle (R213): 1 if either queue of inputs asks for
a reset. That the two queues drive it together is DEDUCED, log 15. -/
def Pair.commonRst (p : Pair) : Bool := p.a.nextInput.rst || p.b.nextInput.rst

/-- The state whose next cycle has `rst = r`; what else the outside world does in it stays as it was. -/
def State.withNextRst (r : Bool) (s : State) : State :=
  s.withEnv { s.env with inputs := { s.nextInput with rst := r } :: s.env.inputs.tail }

/-- The pair whose two endpoints have one `rst` in the next cycle (R213). -/
def Pair.shareRst (p : Pair) : Pair :=
  { p with a := p.a.withNextRst p.commonRst, b := p.b.withNextRst p.commonRst }

/-- One cycle of the lockstep composition: one `clk` and one `rst` for both endpoints (R213). Refused under R9's bound for
endpoints configured alike. -/
def Pair.lockstep (p : Pair) : Host.Outcome Pair Fault Refusal :=
  p.compatible (Pair.unless (Config.lockstepOk p.a.cfg p.b.cfg) .lockstepBound (p.shareRst.edge .both))

/-- `n` cycles of the lockstep composition. -/
def Pair.runLockstep : Nat → Pair → Host.Outcome Pair Fault Refusal
  | 0, p => .next p
  | n + 1, p =>
    match p.lockstep with
    | .next q => Pair.runLockstep n q
    | .fault r => .fault r
    | .refused r => .refused r

/-- One of the two endpoints. -/
inductive Endpoint where
  /-- Endpoint A. -/
  | a
  /-- Endpoint B. -/
  | b
  deriving DecidableEq, Repr

/-- The other endpoint. -/
def Endpoint.other : Endpoint → Endpoint
  | .a => .b
  | .b => .a

/-- The endpoint's own of A's `x` and B's `y`. -/
def Endpoint.pick {α : Type} (e : Endpoint) (x y : α) : α :=
  match e with
  | .a => x
  | .b => y

/-- The two clocks of a pair outside lockstep and the roles that its hosts keep (R266, R276). Times are counted in a unit
of which both periods are multiples. -/
structure Clocks where
  /-- The period of A's clock. -/
  periodA : Nat
  /-- The period of B's clock. -/
  periodB : Nat
  /-- When A's first edge comes. -/
  firstA : Nat
  /-- When B's first edge comes. -/
  firstB : Nat
  /-- The endpoint whose host writes; the other one's reads. -/
  writer : Endpoint
  deriving DecidableEq, Repr

/-- The period of an endpoint's clock. -/
def Clocks.period (k : Clocks) (e : Endpoint) : Nat := e.pick k.periodA k.periodB

/-- When an endpoint's first edge comes. -/
def Clocks.first (k : Clocks) (e : Endpoint) : Nat := e.pick k.firstA k.firstB

/-- SYNC_STAGES where R276 names no owner of it: the larger of the two (DEDUCED, log 17). -/
def sharedStages (cw cr : Config) : Nat := max cw.syncStages cr.syncStages

/-- R276's conditions on the timing parameters: its first four points, with the writer's parameters `cw` and clock period
`pw` and the reader's `cr` and `pr`. A period of 0 meets none. -/
def asyncTimingOk (cw cr : Config) (pw pr : Nat) : Bool :=
  decide (((cr.syncStages + 1) * pr < cw.tSetup * pw ∧ (cr.syncStages + 1) * pr < cw.tHigh * pw) ∧
    (cw.syncStages + 1) * pw < cr.tReady * pr ∧
    (max cw.tSetup cw.tHigh * pw + (sharedStages cw cr + 2) * (pw + pr) < cr.timeout * pr ∧
      cw.tSetup * pw + (2 * sharedStages cw cr + 3) * (pw + pr) < cr.timeout * pr) ∧
    cr.tReady * pr + (2 * sharedStages cw cr + 3) * (pw + pr) < cw.timeout * pw)

/-- R276's fifth point: the issue window of R271 in time, for a LINK_WRITE at time `tw` and a LINK_READ at time `tr`, with
the margin `(2*SYNC_STAGES + 3) * (P_w + P_r)` of the other points. That reading of "widened by the same margins" is
DEDUCED, log 17. -/
def asyncWindowOk (cw cr : Config) (pw pr tw tr : Nat) : Bool :=
  decide (tw + (2 * sharedStages cw cr + 3) * (pw + pr) < tr + cr.timeout * pr ∧
    tr + (2 * sharedStages cw cr + 3) * (pw + pr) < tw + cw.timeout * pw)

/-- An endpoint's state in a pair. -/
def Pair.endpoint (p : Pair) (e : Endpoint) : State := e.pick p.a p.b

/-- The two clocks and the writer they name meet R276's conditions on the pair's timing parameters. -/
def Clocks.timingOk (k : Clocks) (p : Pair) : Bool :=
  asyncTimingOk (p.endpoint k.writer).cfg (p.endpoint k.writer.other).cfg (k.period k.writer)
    (k.period k.writer.other)

/-- The command the host issues in a cycle, if it writes one that decodes to CMD. -/
def CycleIn.issued (inp : CycleIn) : Option Instr :=
  if inp.rst then none
  else match inp.bus with
    | some (.write a v) => if Reg.ofAddr a = .cmd then (decode v).toOption else none
    | some (.read _) => none
    | none => none

/-- The command is a LINK_WRITE. -/
def isWriteCommand (i : Instr) : Bool := opcodeField (encode i) == 0x01#8

/-- The command is a LINK_READ. -/
def isReadCommand (i : Instr) : Bool := opcodeField (encode i) == 0x02#8

/-- The clock edges of `w` on a pair on the two clocks `k`, each endpoint with its own `rst`. Refused where the
parameters break R276's conditions for the roles that `k` names, as R9 says. A host that does not keep its role is not
refused, since R266 says what comes of it; `Pair.Reaches` leaves such runs out. -/
def Pair.tick (k : Clocks) (w : Tick) (p : Pair) : Host.Outcome Pair Fault Refusal :=
  p.compatible (Pair.unless (k.timingOk p) .clockTiming (p.edge w))

/-- The clock edges of a schedule, in order. -/
def Pair.runTicks (k : Clocks) : List Tick → Pair → Host.Outcome Pair Fault Refusal
  | [], p => .next p
  | w :: ws, p =>
    match p.tick k w with
    | .next q => Pair.runTicks k ws q
    | .fault r => .fault r
    | .refused r => .refused r

/-- An edge of a clock with the given period and first edge comes at time `t`. -/
def edgeAt (period first t : Nat) : Bool := decide (first ≤ t ∧ (t - first) % period = 0)

/-- The edges of two clocks at time `t`. -/
def Clocks.ticksAt (k : Clocks) (t : Nat) : List Tick :=
  match edgeAt k.periodA k.firstA t, edgeAt k.periodB k.firstB t with
  | true, true => [.both]
  | true, false => [.onlyA]
  | false, true => [.onlyB]
  | false, false => []

/-- The edges of two clocks before time `n`, in order (R276). -/
def Clocks.schedule (k : Clocks) (n : Nat) : List Tick := (List.range n).flatMap k.ticksAt

/-- A pair run on the two clocks `k` up to time `n` (R276). -/
def Pair.runAsync (k : Clocks) (n : Nat) (p : Pair) : Host.Outcome Pair Fault Refusal := p.runTicks k (k.schedule n)

/-- The edges of an endpoint's clock before time `n`. -/
def Clocks.edges (k : Clocks) (e : Endpoint) (n : Nat) : List Nat :=
  (List.range n).filter (edgeAt (k.period e) (k.first e))

/-- The inputs that an endpoint takes before time `n`: one at each of its edges. -/
def Pair.inputsBefore (k : Clocks) (n : Nat) (p : Pair) (e : Endpoint) : List CycleIn :=
  (p.endpoint e).env.inputs.take (k.edges e n).length

/-- The roles are kept before time `n` (R266): the writer's host issues no LINK_READ, and the reader's no LINK_WRITE. -/
def Clocks.rolesOk (k : Clocks) (n : Nat) (p : Pair) : Bool :=
  (p.inputsBefore k n k.writer).all (fun inp => !inp.issued.any isReadCommand) &&
  (p.inputsBefore k n k.writer.other).all (fun inp => !inp.issued.any isWriteCommand)

/-- An endpoint of a pair is idle in what a run answers. -/
def idleIn (e : Endpoint) (o : Host.Outcome Pair Fault Refusal) : Bool :=
  match o with
  | .next q => decide ((q.endpoint e).link.lstate = .idle)
  | .fault _ => false
  | .refused _ => false

/-- A transaction of an endpoint starts at time `t`: it is idle before the edge and in flight after it. -/
def Pair.startsAt (k : Clocks) (p : Pair) (e : Endpoint) (t : Nat) : Bool :=
  idleIn e (p.runAsync k t) && !idleIn e (p.runAsync k (t + 1))

/-- When the transactions of an endpoint start before time `n`, in order: where the host's command is accepted. -/
def Pair.starts (k : Clocks) (n : Nat) (p : Pair) (e : Endpoint) : List Nat := (List.range n).filter (p.startsAt k e)

/-- R276's fifth point up to time `n`: the writer's first transaction and the reader's first stand in the issue window,
the second and the second, and so on. One whose partner has not started by then must still be able to meet it: the
window is asked for a partner at time `n` (log 17). -/
def Clocks.windowOk (k : Clocks) (n : Nat) (p : Pair) : Bool :=
  let writes := p.starts k n k.writer
  let reads := p.starts k n k.writer.other
  (List.range (max writes.length reads.length)).all fun i =>
    asyncWindowOk (p.endpoint k.writer).cfg (p.endpoint k.writer.other).cfg (k.period k.writer)
      (k.period k.writer.other) (writes.getD i n) (reads.getD i n)

/-- The run of a pair on the two clocks `k` up to time `n` meets R276's conditions: it begins with both endpoints idle,
the endpoint that `k` names the writer is the one whose host writes, and the parameters and the issue times are as
the five points ask of that writer and that reader. -/
def Clocks.admits (k : Clocks) (n : Nat) (p : Pair) : Bool :=
  decide (p.a.link.lstate = .idle ∧ p.b.link.lstate = .idle) && k.timingOk p && k.rolesOk n p && k.windowOk n p

/-- The two endpoints outside lockstep as a relation (R276): the interleavings of two clocks whose runs meet its
conditions. -/
def Pair.Reaches (p q : Pair) : Prop := ∃ k n, k.admits n p = true ∧ p.runAsync k n = .next q

end Sys2Proof.Machine
end

