-- ==== Sys2Proof/Safety.lean ====
section
/-! DEFINITION. What counts as a sound state and a safe run, in the terms the statements use. -/

namespace Sys2Proof.Machine

/-- All five tables are in their canonical form. -/
def State.memoryWf (s : State) : Bool :=
  Memory.wf s.layers.chords && Memory.wf s.layers.counts && Memory.wf s.layers.mods &&
  Memory.wf s.txBuf && Memory.wf s.rxBuf

/-- Every entry outside the tables' extents reads 0: layers below N_LAYERS, entries below MAX_CHORDS, bytes below
LINK_BUF (R33 to R35, R45). -/
def State.WithinBounds (s : State) : Prop :=
  (∀ layer index, chordOk s.cfg layer index = false → s.layers.chord layer index = 0#32) ∧
  (∀ layer, layerOk s.cfg layer = false → s.layers.count layer = 0#8) ∧
  (∀ layer bit, layerOk s.cfg layer = false → s.layers.mod layer bit = 0#8) ∧
  (∀ i, s.cfg.linkBuf ≤ i → Memory.read s.txBuf i = 0#8) ∧
  (∀ i, s.cfg.linkBuf ≤ i → Memory.read s.rxBuf i = 0#8)

/-- The engine's invariants: edges disjoint (R26), the active layer exists (R28), no count above MAX_CHORDS (R34), and
nothing fired and no index without a match (R30). -/
def State.EngineInv (s : State) : Prop :=
  s.tracker.justPressed &&& s.tracker.justReleased = 0#16 ∧
  s.kh.activeLayer.toNat < s.cfg.nLayers ∧
  (∀ layer, (s.layers.count layer).toNat ≤ s.cfg.maxChords) ∧
  (s.res.matched = false → s.res.fired = false ∧ s.res.matchIdx = 0#8)

/-- The pads that the rules of each link state hold (R173, R195 to R205). -/
def Link.padsOf (l : Link) : Pads :=
  match l.lstate with
  | .idle => Pads.released
  | .wWaitLow => ⟨true, false, false, false⟩
  | .wWaitHigh => ⟨true, false, false, false⟩
  | .wSetup => ⟨true, false, true, l.bitAt l.p⟩
  | .wHigh => ⟨true, true, true, l.bitAt l.p⟩
  | .rWaitReq => Pads.released
  | .rReady => ⟨false, false, true, false⟩
  | .rWaitHigh => Pads.released
  | .rWaitLow => Pads.released

/-- The cycles a link state may last: TIMEOUT polls in a bounded state, the fixed length in the others (R194, R236). -/
def LState.budget (c : Config) : LState → Nat
  | .idle => 0
  | .wWaitLow => c.timeout
  | .wWaitHigh => c.timeout
  | .wSetup => c.tSetup
  | .wHigh => c.tHigh
  | .rWaitReq => c.timeout
  | .rReady => c.tReady
  | .rWaitHigh => c.timeout
  | .rWaitLow => c.timeout

/-- The cycles a transaction has spent in its link state: failed polls in a bounded state, `dly` in a fixed one (R41). -/
def Link.spent (l : Link) : Nat :=
  match l.lstate with
  | .idle => 0
  | .wWaitLow => l.tmo.toNat
  | .wWaitHigh => l.tmo.toNat
  | .wSetup => l.dly.toNat
  | .wHigh => l.dly.toNat
  | .rWaitReq => l.tmo.toNat
  | .rReady => l.dly.toNat
  | .rWaitHigh => l.tmo.toNat
  | .rWaitLow => l.tmo.toNat

/-- A write is in flight, LSTATE 1 to 4. -/
def LState.isWrite : LState → Bool
  | .idle => false
  | .wWaitLow => true
  | .wWaitHigh => true
  | .wSetup => true
  | .wHigh => true
  | .rWaitReq => false
  | .rReady => false
  | .rWaitHigh => false
  | .rWaitLow => false

/-- The link unit's invariants: the pads are those of the link state (R173), the counter of the state is below its
budget and both counters are in R41's ranges (R41, R166), RESULT and COUNT read 7 and 0 while BUSY (R209, R210), RESULT is never Other (R211), a write has a bit to
send (R42), a read's capacity fits RX_BUF (R186), the run of ones is at most 5 (R43), the synchronisers have
SYNC_STAGES stages (R39). -/
def State.LinkInv (s : State) : Prop :=
  s.link.pads = s.link.padsOf ∧
  (s.link.lstate ≠ .idle → s.link.spent < s.link.lstate.budget s.cfg) ∧
  s.link.tmo.toNat < s.cfg.timeout ∧ s.link.dly.toNat < max (max s.cfg.tSetup s.cfg.tHigh) s.cfg.tReady ∧
  (s.link.lstate ≠ .idle → s.link.result = .none ∧ s.link.count = 0#8) ∧
  s.link.result ≠ .other ∧
  (s.link.lstate.isWrite = true → s.link.p < s.link.wseq.length) ∧
  (s.link.lstate = .wWaitLow ∨ s.link.lstate = .wWaitHigh → s.link.p = 0) ∧
  (s.link.lstate.isRead = true → s.link.rCap.toNat ≤ s.cfg.linkBuf) ∧
  s.link.rOnes.toNat ≤ 5 ∧
  s.sync.clk.length = s.cfg.syncStages ∧ s.sync.dat.length = s.cfg.syncStages

/-- A sound state: parameters in R8's ranges, tables canonical and within bounds, engine and link invariants. -/
def State.Inv (s : State) : Prop :=
  s.cfg.inRange = true ∧ s.memoryWf = true ∧ s.WithinBounds ∧ s.EngineInv ∧ s.LinkInv

/-- A run that is marked with no fault: no contention, no broken host duty (logs 4 and 5). -/
def State.unmarked (s : State) : Bool := s.env.marks.isEmpty

/-- A pair whose composition and whose endpoints are marked with no fault. -/
def Pair.unmarked (p : Pair) : Bool := p.marks.isEmpty && p.a.unmarked && p.b.unmarked

/-- The state without what the sink said: SINK_ERR, the sink's responses to come, and the last bus word, which may have
shown SINK_ERR. -/
def State.forgetSink (s : State) : State :=
  (s.withKey { s.key with sinkErr := false }).withEnv { s.env with
    inputs := s.env.inputs.map fun inp => { inp with sinkErrIn := false }
    busData := none }

/-- How many of a sequence of KH_UPDATEs (their LEFT and RIGHT masks) dispatch a key press. -/
def State.fires : List (Byte × Byte) → State → Nat
  | [], _ => 0
  | (left, right) :: us, s =>
    match execKhUpdate left right s with
    | .next t => (if t.res.fired then 1 else 0) + State.fires us t
    | .fault _ => 0
    | .refused _ => 0

/-- How many of a sequence of scan masks, after the combined state `prev`, hold a fresh press. -/
def presses : Mask → List (Byte × Byte) → Nat
  | _, [] => 0
  | prev, (left, right) :: us =>
    (if pressEdges (combine left right) prev = 0#16 then 0 else 1) + presses (combine left right) us

end Sys2Proof.Machine

namespace Sys2Proof

/-- The two commands of 42_link.md. -/
def Instr.isLink : Instr → Bool
  | .nop => false
  | .linkWrite _ => true
  | .linkRead _ => true
  | .stUpdate _ _ => false
  | .khUpdate _ _ => false
  | .evalTriggers => false
  | .setActiveLayer _ => false
  | .chordWrite _ _ => false
  | .chordRead _ _ => false
  | .setChordCount _ _ => false
  | .modmapWrite _ _ _ => false
  | .modmapRead _ _ => false

/-- The seven commands of 40_config.md. -/
def Instr.isConfiguration : Instr → Bool
  | .nop => true
  | .linkWrite _ => false
  | .linkRead _ => false
  | .stUpdate _ _ => false
  | .khUpdate _ _ => false
  | .evalTriggers => false
  | .setActiveLayer _ => true
  | .chordWrite _ _ => true
  | .chordRead _ _ => true
  | .setChordCount _ _ => true
  | .modmapWrite _ _ _ => true
  | .modmapRead _ _ => true

end Sys2Proof
end

