-- ==== Sys2Proof/WellFormed.lean ====
section
/-! DEFINITION. When a command's operands are in the ranges of 30_encoding.md R100, under the parameters in force.
A command that is not well-formed still decodes; executing it raises IllegalArgument (R96, step 3). -/

namespace Sys2Proof

/-- Every operand is in R100's legal range. -/
def Instr.wf (c : Config) : Instr → Bool
  | .nop => true
  | .linkWrite len => Machine.lengthOk c len
  | .linkRead cap => Machine.lengthOk c cap
  | .stUpdate _ _ => true
  | .khUpdate _ _ => true
  | .evalTriggers => true
  | .setActiveLayer layer => Machine.layerOk c layer
  | .chordWrite layer index => Machine.chordOk c layer index
  | .chordRead layer index => Machine.chordOk c layer index
  | .setChordCount layer count => Machine.countOk c layer count
  | .modmapWrite layer _ _ => Machine.layerOk c layer
  | .modmapRead layer _ => Machine.layerOk c layer

end Sys2Proof
end

