-- ==== Sys2Proof/Certificates/Slice0/Obligations.lean ====
section
/-! DEFINITION. The statements for the provers, from the numbered rules of spec/. Each is a `def Obligations.<Name>`. -/

open Sys2Proof Sys2Proof.Machine

/-! Encoding: 30_encoding.md. -/

/-- R91 to R95, R97, R109: every command, with every operand, decodes from the word that encodes it. -/
def Obligations.DecodeEncodeRoundTrip : Prop :=
  ∀ i : Instr, decode (encode i) = .ok i

/-- R90, R96, R97: a word that decodes is the one encoding of its command; no two words mean the same command. -/
def Obligations.DecodedWordIsItsEncoding : Prop :=
  ∀ (v : Word) (i : Instr), decode v = .ok i → encode i = v

/-- R98: exactly the opcodes 0x03 to 0x0F, 0x13 to 0x1F and 0x26 to 0xFF raise IllegalCommand (code 8), and writing
such a word to CMD changes CMD_LAST and CMD_RESP alone. -/
def Obligations.UnassignedOpcodeIsIllegalCommand : Prop :=
  ∀ (v : Word) (s : State),
    let op := v.toNat / 2 ^ 24
    let unassigned := (0x03 ≤ op ∧ op ≤ 0x0F) ∨ (0x13 ≤ op ∧ op ≤ 0x1F) ∨ (0x26 ≤ op ∧ op ≤ 0xFF)
    (unassigned ↔ decode v = .error .illegalCommand) ∧
    (unassigned → s.hostWrite 0x000#12 v =
      .next { s with host := { s.host with cmdLast := v, cmdResp := .illegalCommand } }) ∧
    Resp.illegalCommand.code = 8#4

/-- R96 (step 2) with the masks of R97: a word with an assigned opcode and a reserved bit set raises IllegalArgument
(code 9) and changes CMD_LAST and CMD_RESP alone. -/
def Obligations.ReservedBitIsIllegalArgument : Prop :=
  ∀ (op : Byte) (mask v : Word) (s : State),
    (op, mask) ∈ [(0x00#8, 0x00FFFFFF#32), (0x01#8, 0x00FFFF00#32), (0x02#8, 0x00FFFF00#32), (0x10#8, 0x00FF0000#32),
      (0x11#8, 0x00FF0000#32), (0x12#8, 0x00FFFFFF#32), (0x20#8, 0x00FFFF00#32), (0x21#8, 0x0000FF00#32),
      (0x22#8, 0x0000FF00#32), (0x23#8, 0x0000FF00#32), (0x24#8, 0x0000F000#32), (0x25#8, 0x0000F0FF#32)] →
    v.extractLsb' 24 8 = op → v &&& mask ≠ 0#32 →
    decode v = .error .illegalArgument ∧ Resp.illegalArgument.code = 9#4 ∧
    s.hostWrite 0x000#12 v =
      .next { s with host := { s.host with cmdLast := v, cmdResp := .illegalArgument } }

/-- R112: the encoding examples. -/
def Obligations.WrittenWordsDecode : Prop :=
  decode 0x01000004#32 = .ok (.linkWrite 4#8) ∧ decode 0x02000008#32 = .ok (.linkRead 8#8) ∧
  decode 0x11000003#32 = .ok (.khUpdate 0x00#8 0x03#8) ∧ decode 0x1000A50F#32 = .ok (.stUpdate 0xA5#8 0x0F#8) ∧
  decode 0x21000001#32 = .ok (.chordWrite 0#8 1#8) ∧ decode 0x23020040#32 = .ok (.setChordCount 2#8 64#8) ∧
  decode 0x24000E02#32 = .ok (.modmapWrite 0#8 14#4 0x02#8) ∧ decode 0x25030F00#32 = .ok (.modmapRead 3#8 15#4) ∧
  decode 0x20000001#32 = .ok (.setActiveLayer 1#8) ∧ decode 0x01000100#32 = .error .illegalArgument ∧
  decode 0x13000000#32 = .error .illegalCommand

/-! The step: 10_state.md R21, 20_memory.md R64, 70_reset_and_hazards.md R260. -/

/-- R21, R64: in a cycle without reset in which the host writes to CMD a word that decodes to `i`, the step is `exec i`
on the state in which the wires are resolved, the cycle has begun and CMD_LAST has the word, followed by the end of the
cycle (sink port, link state machine if it was busy, synchronisers). `withFetchWord` sets up exactly such a cycle. The
queue of inputs and the order of the parts are the model's (logs 1 and 7). -/
def Obligations.StepRunsTheDecodedCommand : Prop :=
  (∀ (s : State) (inp : CycleIn) (rest : List CycleIn) (a : Addr) (v : Word) (i : Instr),
    s.cfg.inRange = true → s.env.inputs = inp :: rest → inp.rst = false → inp.bus = some (.write a v) →
    a &&& 0xFFC#12 = 0#12 → decode v = .ok i →
    step s = onNext (exec i (((s.resolveWires inp.peer).beginCycle inp).withCmdLast v))
      (State.endCycle inp (wireLevels s.link.pads inp.peer s.env.draws) s.key.firePending s.busy)) ∧
  (∀ (s : State) (v : Word),
    (s.withFetchWord 32 v.toNat).env.inputs = ⟨false, some (.write 0x000#12 v), Pads.released, false⟩ :: s.env.inputs)

/-- R236 (no fatal path) and R62 (no access faults): with parameters in R8's ranges every step answers a next state. That
a configuration outside them is refused by `step` is the model's choice (log 3). -/
def Obligations.StepNeverStopsOnAdmittedParameters : Prop :=
  ∀ s : State, (s.cfg.inRange = true → ∃ t, step s = .next t) ∧ (s.cfg.inRange = false → step s = .refused .parameters)

/-- R49, R260: after a cycle with rst = 1 every element of the block's state has the value of R49's table, whatever the
host writes in that cycle. -/
def Obligations.ResetGivesTheTable : Prop :=
  ∀ s : State, s.cfg.inRange = true → s.nextInput.rst = true →
    ∃ t, step s = .next t ∧ t.cfg = s.cfg ∧
      t.host.cmdLast = 0#32 ∧ t.host.cmdResp.code = 0#4 ∧ t.host.arg0 = 0#32 ∧ t.host.arg1 = 0#32 ∧
      t.tracker = ⟨0#16, 0#16, 0#16, 0#16⟩ ∧ t.kh = ⟨false, 0#8, 0#8⟩ ∧
      t.res = ⟨0#16, false, false, false, 0#8⟩ ∧ t.key = ⟨0#8, 0#8, 0#8, false, false⟩ ∧
      (∀ l i, t.layers.chord l i = 0#32) ∧ (∀ l, t.layers.count l = 0#8) ∧ (∀ l b, t.layers.mod l b = 0#8) ∧
      t.link.lstate.code = 0#4 ∧ t.link.pads = ⟨false, false, false, false⟩ ∧
      t.link.tmo = 0#16 ∧ t.link.dly = 0#16 ∧ t.link.wLen = 0#8 ∧ t.link.wseq = [] ∧ t.link.p = 0 ∧
      t.link.rCap = 0#8 ∧ t.link.rCount = 0#8 ∧ t.link.rNbits = 0#3 ∧ t.link.rSr = 0#8 ∧ t.link.rOnes = 0#3 ∧
      t.link.rTail = false ∧ t.link.result.code = 7#4 ∧ t.link.count = 0#8 ∧
      t.sync.clk = List.replicate s.cfg.syncStages true ∧ t.sync.dat = List.replicate s.cfg.syncStages true ∧
      (∀ i, Memory.read t.txBuf i = 0#8) ∧ (∀ i, Memory.read t.rxBuf i = 0#8)

/-- R63 (reset values), R67, R68: what the host reads from each word of the register window after reset; every word but
LINK_STATUS, LINE_STATE and PARAMS reads 0. -/
def Obligations.RegisterWindowAfterReset : Prop :=
  ∀ (c : Config) (a : Addr), c.inRange = true →
    (State.resetWith c).hostRead a =
      if a &&& 0xFFC#12 = 0x010#12 then 0x00000070#32
      else if a &&& 0xFFC#12 = 0x014#12 then 0x00000003#32
      else if a &&& 0xFFC#12 = 0x018#12 then paramsWord c
      else 0x00000000#32

/-! The host register window: 20_memory.md. -/

/-- R81: no host read has a side effect: a cycle with a read ends as the same cycle without an access, but for the word
that the bus returns, which is the word read from the state at the start of the cycle (R61). The field that holds that
word is the model's own (log 6), and that a read in a cycle with `rst = 1` returns that word too is DEDUCED (log 7). -/
def Obligations.HostReadsHaveNoSideEffect : Prop :=
  ∀ (s : State) (inp : CycleIn) (a : Addr),
    step (s.withNextInput { inp with bus := some (.read a) }) =
      onNext (step (s.withNextInput { inp with bus := none }))
        (fun t => { t with env := { t.env with busData := some (s.hostRead a) } })

/-- R62, R79, R80, R82: address bits `[1:0]` are ignored; a reserved word reads 0; a write outside CMD, ARG0, ARG1 and
the TX_BUF window changes no state. -/
def Obligations.ReservedAndReadOnlyWords : Prop :=
  ∀ (s : State) (a : Addr) (v : Word),
    let o := (a &&& 0xFFC#12).toNat
    s.hostRead a = s.hostRead (a &&& 0xFFC#12) ∧ s.hostWrite a v = s.hostWrite (a &&& 0xFFC#12) v ∧
    (o = 0x01C ∨ (0x034 ≤ o ∧ o < 0x100) ∨ 0x300 ≤ o → s.hostRead a = 0#32) ∧
    (o ≠ 0x000 → o ≠ 0x008 → o ≠ 0x00C → ¬ (0x100 ≤ o ∧ o < 0x200) → s.hostWrite a v = .next s)

/-- R66: a host write to ARG0 or ARG1 stores all 32 bits and nothing else, and a read returns the word. -/
def Obligations.ArgumentRegistersHoldTheWord : Prop :=
  ∀ (s : State) (v : Word),
    (∃ t, s.hostWrite 0x008#12 v = .next t ∧ t = { s with host := { s.host with arg0 := v } } ∧
      t.hostRead 0x008#12 = v) ∧
    (∃ t, s.hostWrite 0x00C#12 v = .next t ∧ t = { s with host := { s.host with arg1 := v } } ∧
      t.hostRead 0x00C#12 = v)

/-- R75, R77: a write to word `k` of the TX_BUF window stores the bytes whose index is below LINK_BUF, byte `4k+j` from
bits `[8j+7 : 8j]`, and nothing else; while BUSY it changes nothing. -/
def Obligations.TxBufWritesStoreBytesUnlessBusy : Prop :=
  ∀ (s : State) (a : Addr) (v : Word),
    let o := (a &&& 0xFFC#12).toNat
    0x100 ≤ o → o < 0x200 →
    ∃ t, s.hostWrite a v = .next t ∧
      (s.busy = true → t = s) ∧
      (s.busy = false → t = { s with txBuf := t.txBuf } ∧
        ∀ i, Memory.read t.txBuf i =
          if o - 0x100 ≤ i ∧ i < o - 0x100 + 4 ∧ i < s.cfg.linkBuf
          then v.extractLsb' (8 * (i - (o - 0x100))) 8 else Memory.read s.txBuf i)

/-- R75, R76: byte `j` of word `k` of a buffer window is byte `4k+j` of the buffer, and 0 at or above LINK_BUF. -/
def Obligations.BufferWindowsReadLittleEndian : Prop :=
  ∀ (s : State) (a : Addr) (j : Nat), j < 4 →
    let o := (a &&& 0xFFC#12).toNat
    (0x100 ≤ o → o < 0x200 → (s.hostRead a).extractLsb' (8 * j) 8 =
      if o - 0x100 + j < s.cfg.linkBuf then Memory.read s.txBuf (o - 0x100 + j) else 0#8) ∧
    (0x200 ≤ o → o < 0x300 → (s.hostRead a).extractLsb' (8 * j) 8 =
      if o - 0x200 + j < s.cfg.linkBuf then Memory.read s.rxBuf (o - 0x200 + j) else 0#8)

/-- R65, R67, R68, R72, R73, R74: the fields of the status registers stand at the bits the rules give, and the bits
between them read 0. R37, R65, R67, R230: the code of every response, every completion and every link state. -/
def Obligations.StatusRegisterFields : Prop :=
  ∀ s : State,
    (s.hostRead 0x004#12).extractLsb' 0 4 = s.host.cmdResp.code ∧ (s.hostRead 0x004#12).extractLsb' 4 28 = 0#28 ∧
    (s.hostRead 0x010#12).getLsbD 0 = s.busy ∧ (s.hostRead 0x010#12).extractLsb' 1 3 = 0#3 ∧
    (s.hostRead 0x010#12).extractLsb' 4 4 = s.link.result.code ∧
    (s.hostRead 0x010#12).extractLsb' 8 8 = s.link.count ∧
    (s.hostRead 0x010#12).extractLsb' 16 4 = s.link.lstate.code ∧ (s.hostRead 0x010#12).extractLsb' 20 12 = 0#12 ∧
    (s.hostRead 0x014#12).getLsbD 0 = s.clkIn ∧ (s.hostRead 0x014#12).getLsbD 1 = s.datIn ∧
    (s.hostRead 0x014#12).getLsbD 2 = s.link.pads.clkOe ∧ (s.hostRead 0x014#12).getLsbD 3 = s.link.pads.clkO ∧
    (s.hostRead 0x014#12).getLsbD 4 = s.link.pads.datOe ∧ (s.hostRead 0x014#12).getLsbD 5 = s.link.pads.datO ∧
    (s.hostRead 0x014#12).extractLsb' 6 26 = 0#26 ∧
    (s.hostRead 0x028#12).getLsbD 0 = s.kh.shouldTrigger ∧ (s.hostRead 0x028#12).extractLsb' 1 7 = 0#7 ∧
    (s.hostRead 0x028#12).extractLsb' 8 8 = s.kh.activeLayer ∧
    (s.hostRead 0x028#12).extractLsb' 16 8 = s.kh.modifier ∧ (s.hostRead 0x028#12).extractLsb' 24 8 = 0#8 ∧
    (s.hostRead 0x02C#12).extractLsb' 0 8 = s.key.keyCode ∧ (s.hostRead 0x02C#12).extractLsb' 8 8 = s.key.keyMod ∧
    (s.hostRead 0x02C#12).extractLsb' 16 8 = s.key.fireCount ∧ (s.hostRead 0x02C#12).getLsbD 24 = s.key.sinkErr ∧
    (s.hostRead 0x02C#12).extractLsb' 25 7 = 0#7 ∧
    (s.hostRead 0x030#12).extractLsb' 0 16 = s.res.jpRet ∧ (s.hostRead 0x030#12).getLsbD 16 = s.res.trig ∧
    (s.hostRead 0x030#12).getLsbD 17 = s.res.matched ∧ (s.hostRead 0x030#12).getLsbD 18 = s.res.fired ∧
    (s.hostRead 0x030#12).extractLsb' 19 5 = 0#5 ∧ (s.hostRead 0x030#12).extractLsb' 24 8 = s.res.matchIdx ∧
    Resp.accepted.code = 0#4 ∧ Resp.pinsBusy.code = 1#4 ∧ Resp.illegalCommand.code = 8#4 ∧
    Resp.illegalArgument.code = 9#4 ∧
    Result.ok.code = 0#4 ∧ Result.alreadyWriting.code = 2#4 ∧ Result.overflow.code = 3#4 ∧
    Result.incorrectEndMarker.code = 4#4 ∧ Result.timeout.code = 5#4 ∧ Result.other.code = 6#4 ∧
    Result.none.code = 7#4 ∧
    LState.idle.code = 0#4 ∧ LState.wWaitLow.code = 1#4 ∧ LState.wWaitHigh.code = 2#4 ∧ LState.wSetup.code = 3#4 ∧
    LState.wHigh.code = 4#4 ∧ LState.rWaitReq.code = 8#4 ∧ LState.rReady.code = 9#4 ∧
    LState.rWaitHigh.code = 10#4 ∧ LState.rWaitLow.code = 11#4

/-- R64, R69, R70, R71: CMD reads CMD_LAST, PARAMS holds the capacities, the bit order, the synchroniser depth and
revision 1, ST_STATE and ST_EDGES hold the tracker. -/
def Obligations.ParameterAndTrackerRegisterFields : Prop :=
  ∀ s : State, s.cfg.inRange = true →
    s.hostRead 0x000#12 = s.host.cmdLast ∧
    ((s.hostRead 0x018#12).extractLsb' 0 8).toNat = s.cfg.linkBuf ∧
    ((s.hostRead 0x018#12).extractLsb' 8 8).toNat = s.cfg.maxChords ∧
    ((s.hostRead 0x018#12).extractLsb' 16 8).toNat = s.cfg.nLayers ∧
    ((s.hostRead 0x018#12).getLsbD 24 = true ↔ s.cfg.bitOrder = .lsbFirst) ∧
    ((s.hostRead 0x018#12).extractLsb' 25 3).toNat = s.cfg.syncStages ∧
    (s.hostRead 0x018#12).extractLsb' 28 4 = 1#4 ∧
    (s.hostRead 0x020#12).extractLsb' 0 16 = s.tracker.state ∧
    (s.hostRead 0x020#12).extractLsb' 16 16 = s.tracker.lastState ∧
    (s.hostRead 0x024#12).extractLsb' 0 16 = s.tracker.justPressed ∧
    (s.hostRead 0x024#12).extractLsb' 16 16 = s.tracker.justReleased

/-! The configuration commands: 40_config.md. -/

/-- R121: NOP, in every state (BUSY or not), does nothing but CMD_RESP <- 0; a word with opcode 0x00 and any of bits
`[23:0]` set raises IllegalArgument. -/
def Obligations.NopOnlyResponds : Prop :=
  (∀ s : State, exec .nop s = .next { s with host := { s.host with cmdResp := .accepted } }) ∧
  Resp.accepted.code = 0#4 ∧ encode .nop = 0x00000000#32 ∧
  ∀ v : Word, v.toNat < 2 ^ 24 → v ≠ 0#32 → decode v = .error .illegalArgument

/-- R122: SET_ACTIVE_LAYER sets the index below N_LAYERS and raises IllegalArgument, with no other effect, above. -/
def Obligations.SetActiveLayerResult : Prop :=
  ∀ (layer : Byte) (s : State),
    (layer.toNat < s.cfg.nLayers → exec (.setActiveLayer layer) s =
      .next { s with host := { s.host with cmdResp := .accepted }, kh := { s.kh with activeLayer := layer } }) ∧
    (s.cfg.nLayers ≤ layer.toNat → exec (.setActiveLayer layer) s =
      .next { s with host := { s.host with cmdResp := .illegalArgument } })

/-- R124, R125: CHORD_WRITE stores all of ARG0 in its entry, whatever its trigger, leaves every other entry, count and
map entry, and changes nothing else; out of range it raises IllegalArgument and nothing else. -/
def Obligations.ChordWriteStoresTheEntry : Prop :=
  ∀ (layer index : Byte) (s : State),
    (layer.toNat < s.cfg.nLayers ∧ index.toNat < s.cfg.maxChords →
      ∃ t, exec (.chordWrite layer index) s = .next t ∧
        t = { s with host := { s.host with cmdResp := .accepted }, layers := t.layers } ∧
        t.layers.chord layer index = s.host.arg0 ∧
        (∀ l i, ¬ (l = layer ∧ i = index) → t.layers.chord l i = s.layers.chord l i) ∧
        (∀ l, t.layers.count l = s.layers.count l) ∧ (∀ l b, t.layers.mod l b = s.layers.mod l b)) ∧
    (¬ (layer.toNat < s.cfg.nLayers ∧ index.toNat < s.cfg.maxChords) →
      exec (.chordWrite layer index) s = .next { s with host := { s.host with cmdResp := .illegalArgument } })

/-- R126: CHORD_READ puts the entry in ARG0 and changes nothing else; out of range it raises IllegalArgument. -/
def Obligations.ChordReadReturnsTheEntry : Prop :=
  ∀ (layer index : Byte) (s : State),
    (layer.toNat < s.cfg.nLayers ∧ index.toNat < s.cfg.maxChords → exec (.chordRead layer index) s =
      .next { s with host := { s.host with cmdResp := .accepted, arg0 := s.layers.chord layer index } }) ∧
    (¬ (layer.toNat < s.cfg.nLayers ∧ index.toNat < s.cfg.maxChords) →
      exec (.chordRead layer index) s = .next { s with host := { s.host with cmdResp := .illegalArgument } })

/-- R127, R128: SET_CHORD_COUNT sets the layer's count (COUNT = MAX_CHORDS and COUNT = 0 are legal), clears no entry and
changes nothing else; out of range it raises IllegalArgument. -/
def Obligations.SetChordCountKeepsEntries : Prop :=
  ∀ (layer count : Byte) (s : State),
    (layer.toNat < s.cfg.nLayers ∧ count.toNat ≤ s.cfg.maxChords →
      ∃ t, exec (.setChordCount layer count) s = .next t ∧
        t = { s with host := { s.host with cmdResp := .accepted }, layers := t.layers } ∧
        t.layers.count layer = count ∧ (∀ l, l ≠ layer → t.layers.count l = s.layers.count l) ∧
        (∀ l i, t.layers.chord l i = s.layers.chord l i) ∧ (∀ l b, t.layers.mod l b = s.layers.mod l b)) ∧
    (¬ (layer.toNat < s.cfg.nLayers ∧ count.toNat ≤ s.cfg.maxChords) →
      exec (.setChordCount layer count) s = .next { s with host := { s.host with cmdResp := .illegalArgument } })

/-- R129: MODMAP_WRITE sets its map entry, leaves every other entry, and changes nothing else; with LAYER out of range
it raises IllegalArgument. -/
def Obligations.ModmapWriteStoresTheModifier : Prop :=
  ∀ (layer : Byte) (bit : BitVec 4) (mod : Byte) (s : State),
    (layer.toNat < s.cfg.nLayers →
      ∃ t, exec (.modmapWrite layer bit mod) s = .next t ∧
        t = { s with host := { s.host with cmdResp := .accepted }, layers := t.layers } ∧
        t.layers.mod layer bit = mod ∧
        (∀ l b, ¬ (l = layer ∧ b = bit) → t.layers.mod l b = s.layers.mod l b) ∧
        (∀ l i, t.layers.chord l i = s.layers.chord l i) ∧ (∀ l, t.layers.count l = s.layers.count l)) ∧
    (s.cfg.nLayers ≤ layer.toNat → exec (.modmapWrite layer bit mod) s =
      .next { s with host := { s.host with cmdResp := .illegalArgument } })

/-- R130: MODMAP_READ puts the zero-extended map entry in ARG0 and changes nothing else; with LAYER out of range it
raises IllegalArgument. -/
def Obligations.ModmapReadReturnsTheModifier : Prop :=
  ∀ (layer : Byte) (bit : BitVec 4) (s : State),
    (layer.toNat < s.cfg.nLayers → exec (.modmapRead layer bit) s =
      .next { s with host := { s.host with cmdResp := .accepted, arg0 := (s.layers.mod layer bit).setWidth 32 } }) ∧
    (s.cfg.nLayers ≤ layer.toNat → exec (.modmapRead layer bit) s =
      .next { s with host := { s.host with cmdResp := .illegalArgument } })

/-- R120: no configuration command, accepted or refused, changes the tracker, the latch, the modifier, the result or key
output registers, or anything of the link. -/
def Obligations.ConfigurationCommandsFrame : Prop :=
  ∀ (i : Instr) (s t : State), i.isConfiguration = true → exec i s = .next t →
    t.tracker = s.tracker ∧ t.kh.shouldTrigger = s.kh.shouldTrigger ∧ t.kh.modifier = s.kh.modifier ∧
    t.res = s.res ∧ t.key = s.key ∧ t.link = s.link ∧ t.sync = s.sync ∧ t.txBuf = s.txBuf ∧ t.rxBuf = s.rxBuf ∧
    t.env = s.env ∧ t.cfg = s.cfg ∧ t.host.cmdLast = s.host.cmdLast ∧ t.host.arg1 = s.host.arg1

/-! The chord engine: 41_engine.md. -/

/-- R141 to R145: ST_UPDATE updates the tracker and `jp_ret` and changes nothing else. -/
def Obligations.StUpdateResult : Prop :=
  ∀ (left right : Byte) (s : State),
    exec (.stUpdate left right) s = .next { s with
      host := { s.host with cmdResp := .accepted }
      tracker :=
        { lastState := s.tracker.state
          state := left ++ right
          justPressed := (left ++ right) &&& ~~~ s.tracker.state
          justReleased := ~~~ (left ++ right) &&& s.tracker.state }
      res := { s.res with jpRet := (left ++ right) &&& ~~~ s.tracker.state } }

/-- R150: EVAL_TRIGGERS writes `trig` from ARG0 and ARG1 by the chord predicate and changes nothing else. -/
def Obligations.EvalTriggersResult : Prop :=
  ∀ s : State,
    exec .evalTriggers s = .next { s with
      host := { s.host with cmdResp := .accepted }
      res := { s.res with
        trig := triggers (s.host.arg0.extractLsb' 0 16) (s.host.arg0.extractLsb' 16 16)
          (s.host.arg1.extractLsb' 0 16) } }

/-- R151, R152: the chord predicate position by position: something is released, every released position is in the
trigger, every position of the trigger was held; a zero trigger never matches. -/
def Obligations.ChordPredicateByPosition : Prop :=
  (∀ trigger lastState justReleased : Mask,
    triggers trigger lastState justReleased = true ↔
      (∃ b, justReleased.getLsbD b = true) ∧
      (∀ b, justReleased.getLsbD b = true → trigger.getLsbD b = true) ∧
      (∀ b, trigger.getLsbD b = true → lastState.getLsbD b = true)) ∧
  (∀ lastState justReleased : Mask, triggers 0#16 lastState justReleased = false)

/-- R154: the match of a layer is the lowest index below its count whose chord triggers; there is none exactly when no
such index exists. -/
def Obligations.FirstMatchIsTheLowestIndex : Prop :=
  ∀ (m : LayerMem) (l : Byte) (L J : Mask),
    (∀ i : Byte, m.firstMatch l L J = some i ↔
      i.toNat < (m.count l).toNat ∧ triggers ((m.chord l i).extractLsb' 0 16) L J = true ∧
      ∀ j : Byte, j.toNat < i.toNat → triggers ((m.chord l j).extractLsb' 0 16) L J = false) ∧
    (m.firstMatch l L J = none ↔
      ∀ i : Byte, i.toNat < (m.count l).toNat → triggers ((m.chord l i).extractLsb' 0 16) L J = false)

/-- R156: every KH_UPDATE, whether or not a chord fires, stores in `modifier` the byte that has a bit exactly when some
position held in the new state maps to a modifier with that bit: the OR of the active layer's map, 0 if nothing maps. -/
def Obligations.ModifierIsTheOrOfHeldPositions : Prop :=
  ∀ (left right : Byte) (s : State), ∃ t, exec (.khUpdate left right) s = .next t ∧
    ∀ k, t.kh.modifier.getLsbD k = true ↔
      ∃ b : BitVec 4, (left ++ right).getLsbD b.toNat = true ∧
        (s.layers.mod s.kh.activeLayer b).getLsbD k = true

/-- R155, R157 to R161: KH_UPDATE updates the tracker as ST_UPDATE does, computes the modifier and the latch, and, with
the latch armed before, takes the lowest chord that triggers: a `Key` chord is dispatched with the new modifier, any
other is matched with no effect; with no such chord nothing is matched. Everything else is unchanged. -/
def Obligations.KhUpdateResult : Prop :=
  ∀ (left right : Byte) (s : State),
    let new := left ++ right
    let jp := new &&& ~~~ s.tracker.state
    let jr := ~~~ new &&& s.tracker.state
    let mod := s.layers.modifier s.kh.activeLayer new
    let hit := fun i : Byte => s.kh.shouldTrigger = true ∧
      i.toNat < (s.layers.count s.kh.activeLayer).toNat ∧
      triggers ((s.layers.chord s.kh.activeLayer i).extractLsb' 0 16) s.tracker.state jr = true
    ∃ t, exec (.khUpdate left right) s = .next t ∧
      t = { s with
        host := { s.host with cmdResp := .accepted }
        tracker := { lastState := s.tracker.state, state := new, justPressed := jp, justReleased := jr }
        kh := { s.kh with
          shouldTrigger := if jr ≠ 0#16 then false else s.kh.shouldTrigger || decide (jp ≠ 0#16)
          modifier := mod }
        res := { t.res with jpRet := jp, trig := s.res.trig }
        key := t.key } ∧
      ((∀ i, ¬ hit i) → t.res.matched = false ∧ t.res.fired = false ∧ t.res.matchIdx = 0#8 ∧ t.key = s.key) ∧
      (∀ m, hit m → (∀ j : Byte, j.toNat < m.toNat → ¬ hit j) →
        let action := (s.layers.chord s.kh.activeLayer m).extractLsb' 16 16
        t.res.matched = true ∧ t.res.matchIdx = m ∧
        (action.extractLsb' 14 2 = 0#2 → t.res.fired = true ∧ t.key = { s.key with
          keyCode := action.extractLsb' 0 8, keyMod := mod, fireCount := s.key.fireCount + 1#8
          firePending := true }) ∧
        (action.extractLsb' 14 2 ≠ 0#2 → t.res.fired = false ∧ t.key = s.key))

/-- R146, R147: after every update, ST_UPDATE or KH_UPDATE, the press and release edges are disjoint, and a second update
with the same masks, of either kind, leaves no edge. -/
def Obligations.EdgesAreDisjointAndRepeatsHaveNone : Prop :=
  ∀ (left right : Byte) (i j : Instr) (s : State),
    i = .stUpdate left right ∨ i = .khUpdate left right → j = .stUpdate left right ∨ j = .khUpdate left right →
    ∃ t u, exec i s = .next t ∧ exec j t = .next u ∧
      t.tracker.justPressed &&& t.tracker.justReleased = 0#16 ∧
      u.tracker.justPressed = 0#16 ∧ u.tracker.justReleased = 0#16

/-- R164: KH_UPDATE depends on layer memory only through the active layer: with another layer memory that agrees on it,
everything but layer memory itself comes out the same. -/
def Obligations.OnlyTheActiveLayerParticipates : Prop :=
  ∀ (left right : Byte) (s t : State) (m : LayerMem),
    m.count s.kh.activeLayer = s.layers.count s.kh.activeLayer →
    (∀ i, m.chord s.kh.activeLayer i = s.layers.chord s.kh.activeLayer i) →
    (∀ b, m.mod s.kh.activeLayer b = s.layers.mod s.kh.activeLayer b) →
    exec (.khUpdate left right) s = .next t →
    exec (.khUpdate left right) { s with layers := m } = .next { t with layers := m }

/-- R157, R158: a fresh press is fired at most once: over any sequence of KH_UPDATEs the presses dispatched are at most
the updates that held a fresh press, and one more if the latch was armed before. -/
def Obligations.EachPressFiresAtMostOnce : Prop :=
  ∀ (us : List (Byte × Byte)) (s : State),
    s.fires us ≤ presses s.tracker.state us + if s.kh.shouldTrigger then 1 else 0

/-- R162: outside reset, `key_fire` is 1 in the cycle after a dispatching KH_UPDATE and in no other, and `sink_err` takes
the sink's response at the end of exactly the cycles in which `key_fire` is 1; after reset both are 0. -/
def Obligations.KeyFirePulsesOncePerDispatch : Prop :=
  ∀ s t : State, step s = .next t →
    (s.nextInput.rst = true → t.key.firePending = false ∧ t.key.sinkErr = false) ∧
    (s.nextInput.rst = false →
      (t.key.firePending = true ↔ ∃ a v left right, s.nextInput.bus = some (.write a v) ∧ a &&& 0xFFC#12 = 0#12 ∧
        decode v = .ok (.khUpdate left right) ∧ t.res.fired = true) ∧
      t.key.sinkErr = if s.key.firePending then s.nextInput.sinkErrIn else s.key.sinkErr)

/-- R163, R234: the sink's response changes nothing but SINK_ERR: two states that differ only in SINK_ERR and in the
responses still to come step to states that differ only so (the last bus word, which may have shown SINK_ERR, aside). -/
def Obligations.SinkResponseReachesOnlySinkErr : Prop :=
  ∀ s t s' : State, s.forgetSink = s'.forgetSink → step s = .next t →
    ∃ t', step s' = .next t' ∧ t.forgetSink = t'.forgetSink

/-- R140, R120: an engine or configuration command neither reads nor changes the link: with any other link registers,
synchronisers and buffers in place it does the same and leaves them as they are. -/
def Obligations.EngineAndConfigurationIgnoreTheLink : Prop :=
  ∀ (i : Instr) (s t : State) (l : Link) (y : Sync) (tx rx : Memory 8), i.isLink = false → exec i s = .next t →
    exec i { s with link := l, sync := y, txBuf := tx, rxBuf := rx } =
      .next { t with link := l, sync := y, txBuf := tx, rxBuf := rx }

/-! The link unit: 42_link.md. -/

/-- R178 to R182: LINK_WRITE. LEN above LINK_BUF raises IllegalArgument, then BUSY raises PinsBusy, with no other
effect; with `clk_in = 0` it completes with AlreadyWriting; else the frame of `TX_BUF[0 .. LEN-1]` is fixed and the clock
driven low. The mark (the model's own, log 5) records a write in the first SYNC_STAGES cycles after reset. -/
def Obligations.LinkWriteResult : Prop :=
  ∀ (len : Byte) (s : State),
    let marked := { s.env with
      marks := if 0 < s.env.warmup then addMark .earlyLinkWrite s.env.marks else s.env.marks }
    (s.cfg.linkBuf < len.toNat →
      exec (.linkWrite len) s = .next { s with host := { s.host with cmdResp := .illegalArgument } }) ∧
    (len.toNat ≤ s.cfg.linkBuf → s.link.lstate ≠ .idle →
      exec (.linkWrite len) s = .next { s with host := { s.host with cmdResp := .pinsBusy } }) ∧
    (len.toNat ≤ s.cfg.linkBuf → s.link.lstate = .idle → s.clkIn = false →
      exec (.linkWrite len) s = .next { s with
        host := { s.host with cmdResp := .accepted }, env := marked
        link := { s.link with result := .alreadyWriting, count := 0#8 } }) ∧
    (len.toNat ≤ s.cfg.linkBuf → s.link.lstate = .idle → s.clkIn = true →
      exec (.linkWrite len) s = .next { s with
        host := { s.host with cmdResp := .accepted }, env := marked
        link := { s.link with
          wLen := len, p := 0, tmo := 0#16, result := .none, count := 0#8, lstate := .wWaitLow
          wseq := frame s.cfg.bitOrder ((List.range len.toNat).map fun i => Memory.read s.txBuf i)
          pads := { s.link.pads with clkOe := true, clkO := false } } })

/-- R178, R179, R186: LINK_READ. CAP above LINK_BUF raises IllegalArgument, then BUSY raises PinsBusy, with no other
effect; else the reader's registers are cleared and the read begins, with no pad driven. The mark (the model's own, log
5) records a read before R270's wait is over. -/
def Obligations.LinkReadResult : Prop :=
  ∀ (cap : Byte) (s : State),
    (s.cfg.linkBuf < cap.toNat →
      exec (.linkRead cap) s = .next { s with host := { s.host with cmdResp := .illegalArgument } }) ∧
    (cap.toNat ≤ s.cfg.linkBuf → s.link.lstate ≠ .idle →
      exec (.linkRead cap) s = .next { s with host := { s.host with cmdResp := .pinsBusy } }) ∧
    (cap.toNat ≤ s.cfg.linkBuf → s.link.lstate = .idle →
      exec (.linkRead cap) s = .next { s with
        host := { s.host with cmdResp := .accepted }
        env := { s.env with
          marks := if 0 < s.env.rereadWait then addMark .earlyLinkRead s.env.marks else s.env.marks }
        link := { s.link with
          rCap := cap, rCount := 0#8, rNbits := 0#3, rSr := 0#8, rOnes := 0#3, rTail := false
          tmo := 0#16, result := .none, count := 0#8, lstate := .rWaitReq } })

/-- R174: the bits of a byte in each wire order. -/
def Obligations.ByteBitsInWireOrder : Prop :=
  ∀ b : Byte,
    byteBits .msbFirst b = [b.getLsbD 7, b.getLsbD 6, b.getLsbD 5, b.getLsbD 4, b.getLsbD 3, b.getLsbD 2, b.getLsbD 1,
      b.getLsbD 0] ∧
    byteBits .lsbFirst b = [b.getLsbD 0, b.getLsbD 1, b.getLsbD 2, b.getLsbD 3, b.getLsbD 4, b.getLsbD 5, b.getLsbD 6,
      b.getLsbD 7]

/-- R175, R177: a stuffed payload never holds six consecutive 1 bits and never ends in five; the frame is the stuffed
payload bits and the end marker `0111_1110`. -/
def Obligations.StuffedPayloadNeverShowsTheFlag : Prop :=
  (∀ u : List Bool, ¬ List.replicate 6 true <:+: stuff u ∧ ¬ List.replicate 5 true <:+ stuff u) ∧
  (∀ (o : BitOrder) (d : List Byte),
    frame o d = stuff (d.flatMap (byteBits o)) ++ [false, true, true, true, true, true, true, false])

/-- R177, R270: a frame of `n` bytes has at least `8n + 8` bits and at most `8n + floor(8n/5) + 8`. -/
def Obligations.FrameLengthBounds : Prop :=
  ∀ (o : BitOrder) (d : List Byte),
    8 * d.length + 8 ≤ (frame o d).length ∧ (frame o d).length ≤ 8 * d.length + 8 * d.length / 5 + 8

/-- R177, R187 to R191, R193: destuffing `frame(d)` from the start of a read gives back exactly `d`: the read completes
at the frame's last bit and not before, with OK, or Overflow if more bytes came than CAP; the count is the number of
bytes (saturated at 255), the bytes below CAP are stored, every other byte of RX_BUF keeps its value. -/
def Obligations.DestuffingRecoversTheFrame : Prop :=
  ∀ (d : List Byte) (s : State),
    s.link.rCount = 0#8 → s.link.rNbits = 0#3 → s.link.rOnes = 0#3 → s.link.rTail = false →
    (∃ u, s.destuffAll (frame s.cfg.bitOrder d).dropLast = (u, none)) ∧
    ∃ t, s.destuffAll (frame s.cfg.bitOrder d) =
        (t, some (if s.link.rCap.toNat < min d.length 255 then .overflow else .ok)) ∧
      t.link.rCount.toNat = min d.length 255 ∧
      (∀ i, i < d.length → i < s.link.rCap.toNat → Memory.read t.rxBuf i = d.getD i 0#8) ∧
      (∀ i, d.length ≤ i ∨ s.link.rCap.toNat ≤ i → Memory.read t.rxBuf i = Memory.read s.rxBuf i)

/-- R187, R190, R192: one destuff step, in the order of the rule. -/
def Obligations.DestuffStep : Prop :=
  ∀ (x : Bool) (s : State),
    (s.link.rTail = true → x = true → s.destuff x = (s, some .incorrectEndMarker)) ∧
    (s.link.rTail = true → x = false →
      s.destuff x = (s, some (if s.link.rCap.toNat < s.link.rCount.toNat then .overflow else .ok))) ∧
    (s.link.rTail = false → s.link.rOnes = 5#3 → x = false →
      s.destuff x = ({ s with link := { s.link with rOnes := 0#3 } }, none)) ∧
    (s.link.rTail = false → s.link.rOnes = 5#3 → x = true →
      s.destuff x = ({ s with link := { s.link with rTail := true } }, none)) ∧
    (s.link.rTail = false → s.link.rOnes ≠ 5#3 →
      let sr := match s.cfg.bitOrder with
        | .msbFirst => (s.link.rSr.extractLsb' 0 7 ++ BitVec.ofBool x : BitVec 8)
        | .lsbFirst => (BitVec.ofBool x ++ s.link.rSr.extractLsb' 1 7 : BitVec 8)
      let done := s.link.rNbits = 7#3
      s.destuff x = ({ s with
        link := { s.link with
          rSr := sr
          rOnes := if x then s.link.rOnes + 1#3 else 0#3
          rNbits := if done then 0#3 else s.link.rNbits + 1#3
          rCount := if done ∧ s.link.rCount.toNat < 255 then s.link.rCount + 1#8 else s.link.rCount }
        rxBuf := if done ∧ s.link.rCount.toNat < s.link.rCap.toNat
          then Memory.write s.rxBuf s.link.rCount.toNat sr else s.rxBuf }, none))

/-- R194, R207, R208: in each of the five bounded states a failed poll below the TIMEOUT-th only counts, and the
TIMEOUT-th ends the transaction: both lines released, RESULT 5, COUNT `r_count` in a read and 0 in a write, IDLE, and
nothing else. The wait that a read's Timeout starts is the model's mark of R270 (logs 5 and 16). -/
def Obligations.BoundedWaitsCountAndTimeOut : Prop :=
  ∀ s : State,
    (s.link.lstate = .wWaitLow ∧ s.datIn = true) ∨ (s.link.lstate = .wWaitHigh ∧ s.datIn = false) ∨
    (s.link.lstate = .rWaitReq ∧ s.clkIn = true) ∨ (s.link.lstate = .rWaitHigh ∧ s.clkIn = false) ∨
    (s.link.lstate = .rWaitLow ∧ s.clkIn = true) →
    (s.link.tmo.toNat + 1 ≠ s.cfg.timeout →
      s.linkTick = { s with link := { s.link with tmo := s.link.tmo + 1#16 } }) ∧
    (s.link.tmo.toNat + 1 = s.cfg.timeout →
      let reading := s.link.lstate = .rWaitReq ∨ s.link.lstate = .rWaitHigh ∨ s.link.lstate = .rWaitLow
      s.linkTick = { s with
        link := { s.link with
          pads := ⟨false, false, false, false⟩, result := .timeout, lstate := .idle
          count := if reading then s.link.rCount else 0#8 }
        env := { s.env with rereadWait := if reading then s.cfg.rereadCycles else s.env.rereadWait } } ∧
      Result.timeout.code = 5#4)

/-- R196 to R200: the writer's transitions. -/
def Obligations.WriterTransitions : Prop :=
  ∀ s : State,
    (s.link.lstate = .wWaitLow → s.datIn = false →
      s.linkTick = { s with link := { s.link with tmo := 0#16, lstate := .wWaitHigh } }) ∧
    (s.link.lstate = .wWaitHigh → s.datIn = true →
      s.linkTick = { s with link := { s.link with
        pads := { s.link.pads with datOe := true, datO := s.link.wseq.getD 0 true }
        dly := 0#16, lstate := .wSetup } }) ∧
    (s.link.lstate = .wSetup → s.link.dly.toNat + 1 ≠ s.cfg.tSetup →
      s.linkTick = { s with link := { s.link with dly := s.link.dly + 1#16 } }) ∧
    (s.link.lstate = .wSetup → s.link.dly.toNat + 1 = s.cfg.tSetup →
      s.linkTick = { s with link := { s.link with
        pads := { s.link.pads with clkO := true }, dly := 0#16, lstate := .wHigh } }) ∧
    (s.link.lstate = .wHigh → s.link.dly.toNat + 1 ≠ s.cfg.tHigh →
      s.linkTick = { s with link := { s.link with dly := s.link.dly + 1#16 } }) ∧
    (s.link.lstate = .wHigh → s.link.dly.toNat + 1 = s.cfg.tHigh → s.link.p + 1 < s.link.wseq.length →
      s.linkTick = { s with link := { s.link with
        p := s.link.p + 1, dly := 0#16, lstate := .wSetup
        pads := { s.link.pads with clkO := false, datO := s.link.wseq.getD (s.link.p + 1) true } } }) ∧
    (s.link.lstate = .wHigh → s.link.dly.toNat + 1 = s.cfg.tHigh → s.link.p + 1 = s.link.wseq.length →
      s.linkTick = { s with link := { s.link with
        pads := ⟨false, false, false, false⟩, result := .ok, count := s.link.wLen, lstate := .idle } })

/-- R201 to R205: the reader's transitions. After a read error the model starts R270's wait (log 5). -/
def Obligations.ReaderTransitions : Prop :=
  ∀ s : State,
    (s.link.lstate = .rWaitReq → s.clkIn = false →
      s.linkTick = { s with link := { s.link with
        pads := { s.link.pads with datOe := true, datO := false }, dly := 0#16, lstate := .rReady } }) ∧
    (s.link.lstate = .rReady → s.link.dly.toNat + 1 ≠ s.cfg.tReady →
      s.linkTick = { s with link := { s.link with dly := s.link.dly + 1#16 } }) ∧
    (s.link.lstate = .rReady → s.link.dly.toNat + 1 = s.cfg.tReady →
      s.linkTick = { s with link := { s.link with
        pads := { s.link.pads with datOe := false, datO := false }, tmo := 0#16, lstate := .rWaitHigh } }) ∧
    (s.link.lstate = .rWaitHigh → s.clkIn = true →
      (∀ t, s.destuff s.datIn = (t, none) →
        s.linkTick = { t with link := { t.link with tmo := 0#16, lstate := .rWaitLow } }) ∧
      (∀ t e, s.destuff s.datIn = (t, some e) →
        s.linkTick = { t with
          link := { t.link with
            pads := ⟨false, false, false, false⟩, result := e, count := t.link.rCount, lstate := .idle }
          env := { t.env with rereadWait := if e = .ok then t.env.rereadWait else t.cfg.rereadCycles } })) ∧
    (s.link.lstate = .rWaitLow → s.clkIn = false →
      s.linkTick = { s with link := { s.link with tmo := 0#16, lstate := .rWaitHigh } })

/-- R206: in the cycle in which a transaction returns to IDLE, however it ends, both lines are released; a cycle that
starts and ends in IDLE, such as one with AlreadyWriting, changes no pad. -/
def Obligations.LinesReleasedOnEveryExit : Prop :=
  ∀ s t : State, step s = .next t → t.link.lstate = .idle →
    (s.link.lstate ≠ .idle →
      t.link.pads.clkOe = false ∧ t.link.pads.datOe = false ∧ t.link.pads.clkO = false ∧ t.link.pads.datO = false) ∧
    (s.link.lstate = .idle → s.nextInput.rst = false → t.link.pads = s.link.pads)

/-- R211: no step puts Other (code 6) into RESULT. -/
def Obligations.OtherIsNeverRaised : Prop :=
  ∀ s t : State, s.link.result ≠ .other → step s = .next t → t.link.result ≠ .other ∧ t.link.result.code ≠ 6#4

/-- R178, R238: while a transaction is in flight no command disturbs the link registers, the synchronisers or RX_BUF,
and TX_BUF cannot be written (R77): whatever the host does in the cycle, the link ends it as with no access at all. -/
def Obligations.BusyTransactionIsUndisturbed : Prop :=
  ∀ (s t u : State) (inp : CycleIn), s.busy = true →
    step (s.withNextInput inp) = .next t → step (s.withNextInput { inp with bus := none }) = .next u →
    t.link = u.link ∧ t.sync = u.sync ∧ t.txBuf = u.txBuf ∧ t.rxBuf = u.rxBuf

/-- R236: every link state other than IDLE is left within its budget of cycles, TIMEOUT for a bounded wait and the fixed
count for a fixed phase, less those already spent in it, whatever the inputs. -/
def Obligations.EveryLinkStateIsLeft : Prop :=
  ∀ s : State, s.cfg.inRange = true → s.LinkInv → s.link.lstate ≠ .idle →
    ∃ n t, n + s.link.spent ≤ s.link.lstate.budget s.cfg ∧ Host.Core.run Sys2Proof.core n s = .next t ∧
      t.link.lstate ≠ s.link.lstate

/-- R194, R207, R208: a request nobody answers: a read waiting for a request on an idle clock wire, and a write waiting
for the ready pulse on an idle data wire, end with Timeout after exactly TIMEOUT cycles. The outside world is quiet;
that it stays so past the queue's end is the model's choice (log 1). -/
def Obligations.UnansweredRequestTimesOut : Prop :=
  ∀ s : State, s.cfg.inRange = true → (∀ inp ∈ s.env.inputs, inp = CycleIn.quiet) → s.link.tmo = 0#16 →
    (s.link.lstate = .rWaitReq ∧ s.link.pads = Pads.released ∧
        s.sync.clk = List.replicate s.cfg.syncStages true) ∨
      (s.link.lstate = .wWaitLow ∧ s.link.pads = ⟨true, false, false, false⟩ ∧
        s.sync.dat = List.replicate s.cfg.syncStages true) →
    (∀ n, n < s.cfg.timeout → ∃ u, Host.Core.run Sys2Proof.core n s = .next u ∧ u.link.lstate = s.link.lstate) ∧
    ∃ t, Host.Core.run Sys2Proof.core s.cfg.timeout s = .next t ∧ t.link.lstate = .idle ∧
      t.link.result = .timeout ∧ t.link.pads = Pads.released ∧
      t.link.count = if s.link.lstate = .rWaitReq then s.link.rCount else 0#8

/-! The wires, the synchronisers and the two endpoints. -/

/-- R170, R171: the level of a wire from its two pads: 1 if none drives it, the common value of those that drive it, and
otherwise the free value, with a draw taken and the sticky `wire_contention` mark of that wire. The form of the draw and
of the mark is the model's (log 4). -/
def Obligations.WireResolution : Prop :=
  ∀ (a b : Pads) (n : Nat) (marks : List Fault),
    (a.clkOe = false → b.clkOe = false → (wireLevels a b n).clk = true) ∧
    (a.clkOe = true → b.clkOe = false → (wireLevels a b n).clk = a.clkO) ∧
    (a.clkOe = false → b.clkOe = true → (wireLevels a b n).clk = b.clkO) ∧
    (a.clkOe = true → b.clkOe = true → a.clkO = b.clkO → (wireLevels a b n).clk = a.clkO) ∧
    (a.clkOe = true → b.clkOe = true → a.clkO ≠ b.clkO →
      (wireLevels a b n).clk = Config.clkDraw n ∧ drawsAfter a b n = n + 1 ∧
      Fault.clkContention ∈ marksAfter a b marks) ∧
    (a.datOe = false → b.datOe = false → (wireLevels a b n).dat = true) ∧
    (a.datOe = true → b.datOe = false → (wireLevels a b n).dat = a.datO) ∧
    (a.datOe = false → b.datOe = true → (wireLevels a b n).dat = b.datO) ∧
    (a.datOe = true → b.datOe = true → a.datO = b.datO → (wireLevels a b n).dat = a.datO) ∧
    (a.datOe = true → b.datOe = true → a.datO ≠ b.datO →
      (wireLevels a b n).dat = Config.datDraw n ∧ drawsAfter a b n = n + 1 ∧
      Fault.datContention ∈ marksAfter a b marks) ∧
    (∀ f ∈ marks, f ∈ marksAfter a b marks)

/-- R172: in a run without reset `clk_in` and `dat_in` show the wire levels of SYNC_STAGES cycles before. -/
def Obligations.SynchroniserDelay : Prop :=
  ∀ s t : State, s.sync.clk.length = s.cfg.syncStages → s.sync.dat.length = s.cfg.syncStages →
    (∀ inp ∈ s.env.inputs.take s.cfg.syncStages, inp.rst = false) → 0 < s.cfg.syncStages →
    Host.Core.run Sys2Proof.core s.cfg.syncStages s = .next t →
    t.clkIn = (wireLevels s.link.pads s.nextInput.peer s.env.draws).clk ∧
    t.datIn = (wireLevels s.link.pads s.nextInput.peer s.env.draws).dat

/-- R263: for the first SYNC_STAGES cycles after reset `clk_in` and `dat_in` read 1 whatever the wires carry and
whatever else happens. -/
def Obligations.InputsReadHighAfterReset : Prop :=
  ∀ (c : Config) (inputs : List CycleIn) (n : Nat) (t : State), n < c.syncStages →
    Host.Core.run Sys2Proof.core n { State.resetWith c with env := { Env.reset c with inputs := inputs } } = .next t →
    t.clkIn = true ∧ t.datIn = true

/-- R213, R216: in lockstep, under R9's bound, with both endpoints idle on idle wires, a LINK_WRITE issued in cycle `w`
and a LINK_READ issued in cycle `r` of R216's window: by the later of the two IDLE cycles of R216's timeline both have
completed, the writer with OK and LEN, the reader with the outcome of destuffing the frame with its CAP, and no wire was
ever contended. Both queues of inputs end with the link command: that the world stays quiet past their end is the
model's choice (log 1). -/
def Obligations.LockstepDelivers : Prop :=
  ∀ (c : Config) (p : Pair) (len cap : Byte) (w r : Nat),
    c.inRange = true → c.lockstepBound = true → p.a.cfg = c → p.b.cfg = c →
    len.toNat ≤ c.linkBuf → cap.toNat ≤ c.linkBuf →
    p.a.link.lstate = .idle → p.a.link.pads = Pads.released → p.a.sync = Sync.reset c →
    p.b.link.lstate = .idle → p.b.link.pads = Pads.released → p.b.sync = Sync.reset c →
    p.a.env.inputs = List.replicate w CycleIn.quiet ++ [CycleIn.command (encode (.linkWrite len))] →
    p.b.env.inputs = List.replicate r CycleIn.quiet ++ [CycleIn.command (encode (.linkRead cap))] →
    p.marks = [] → w + c.syncStages + 1 ≤ r + c.timeout → r + c.syncStages + 2 ≤ w + c.timeout →
    let n := (frame c.bitOrder (p.a.payload len)).length
    let handshake := w + 2 * c.syncStages + 3 + c.tReady + (r - (w + c.syncStages))
    let writerIdle := handshake + n * (c.tSetup + c.tHigh)
    let readerIdle := handshake + 1 + (n - 1) * (c.tSetup + c.tHigh) + c.tSetup + c.syncStages
    ∃ q, p.runLockstep (max writerIdle readerIdle) = .next q ∧ q.marks = [] ∧
      q.a.link.lstate = .idle ∧ q.a.link.result = .ok ∧ q.a.link.count = len ∧
      q.b.link.lstate = .idle ∧ q.b.link.count = len ∧
      q.b.link.result = (if cap.toNat < len.toNat then .overflow else .ok) ∧
      (∀ i, i < len.toNat → i < cap.toNat → Memory.read q.b.rxBuf i = Memory.read p.a.txBuf i) ∧
      (∀ i, len.toNat ≤ i ∨ cap.toNat ≤ i → Memory.read q.b.rxBuf i = Memory.read p.b.rxBuf i)

/-- R267, R9, R276: of two endpoints with parameters in R8's ranges, the model refuses those of different BIT_ORDER, in
lockstep those configured alike that break R9's bound, and on two clocks those that break R276's conditions on the
parameters; every other pair takes its clock edges, in lockstep and on two clocks. R213: in lockstep the reset is
common, so that a reset asked for at one endpoint gives both their reset values. That lockstep admits endpoints not
configured alike is DEDUCED (log 10), the common level of `rst` too (log 15), and whose SYNC_STAGES R276 means (log 17). -/
def Obligations.PairRefusesMismatchedEndpoints : Prop :=
  ∀ (p : Pair) (k : Clocks) (w : Tick), p.a.cfg.inRange = true → p.b.cfg.inRange = true →
    let ca := p.a.cfg
    let cb := p.b.cfg
    let alike := ca.timeout = cb.timeout ∧ ca.tSetup = cb.tSetup ∧ ca.tHigh = cb.tHigh ∧ ca.tReady = cb.tReady ∧
      ca.syncStages = cb.syncStages
    let bound := max (max ca.tHigh ca.tReady) (2 * ca.syncStages + ca.tSetup + 2) ≤ ca.timeout
    let cw := if k.writer = .a then ca else cb
    let cr := if k.writer = .a then cb else ca
    let pw := if k.writer = .a then k.periodA else k.periodB
    let pr := if k.writer = .a then k.periodB else k.periodA
    let stages := max ca.syncStages cb.syncStages
    let timing := cw.tSetup * pw > (cr.syncStages + 1) * pr ∧ cw.tHigh * pw > (cr.syncStages + 1) * pr ∧
      cr.tReady * pr > (cw.syncStages + 1) * pw ∧
      cr.timeout * pr > max cw.tSetup cw.tHigh * pw + (stages + 2) * (pw + pr) ∧
      cr.timeout * pr > cw.tSetup * pw + (2 * stages + 3) * (pw + pr) ∧
      cw.timeout * pw > cr.tReady * pr + (2 * stages + 3) * (pw + pr)
    (ca.bitOrder ≠ cb.bitOrder → p.tick k w = .refused .bitOrderMismatch ∧ p.lockstep = .refused .bitOrderMismatch) ∧
    (ca.bitOrder = cb.bitOrder →
      (alike ∧ ¬ bound → p.lockstep = .refused .lockstepBound) ∧
      (¬ alike ∨ bound → ∃ q, p.lockstep = .next q ∧
        (p.a.nextInput.rst = true ∨ p.b.nextInput.rst = true →
          q.a = { State.resetWith ca with env := q.a.env } ∧ q.b = { State.resetWith cb with env := q.b.env })) ∧
      (¬ timing → p.tick k w = .refused .clockTiming) ∧
      (timing → ∃ q, p.tick k w = .next q))

/-! Invariants. -/

/-- R49: the state after reset is sound, with any parameters in R8's ranges. -/
def Obligations.ResetIsSound : Prop :=
  ∀ c : Config, c.inRange = true → (State.resetWith c).Inv

/-- Every step, from every state, keeps the five tables in their canonical form. -/
def Obligations.StepKeepsTablesCanonical : Prop :=
  ∀ s t : State, s.memoryWf = true → step s = .next t → t.memoryWf = true

/-- R26, R28, R30, R34, R38, R39, R41 to R43, R173, R209 to R211: every step from a sound state answers a sound state,
with the same parameters (R48). -/
def Obligations.StepKeepsSoundness : Prop :=
  ∀ s t : State, s.Inv → step s = .next t → t.Inv ∧ t.cfg = s.cfg

/-- R213, R276: both endpoints of a pair stay sound, with the same parameters (R48), under every clock edge on two
clocks, in every cycle in lockstep, and in every run that R276's relation admits. -/
def Obligations.PairTicksKeepSoundness : Prop :=
  ∀ (p q : Pair), p.a.Inv → p.b.Inv →
    (∃ k w, p.tick k w = .next q) ∨ p.lockstep = .next q ∨ p.Reaches q →
    q.a.Inv ∧ q.b.Inv ∧ q.a.cfg = p.a.cfg ∧ q.b.cfg = p.b.cfg
end

