-- ==== Sys2Proof/Laws/Memory.lean ====
section
/-! SUPPORT. The laws of the tables: a read after a write, and the canonical form kept by every operation. -/

namespace Sys2Proof.Machine

variable {w : Nat}

/-- No entry of the table is at index `k`. -/
def Memory.Absent (k : Nat) (m : Memory w) : Prop := ∀ c ∈ m, c.1 ≠ k

theorem Memory.read_of_absent {k : Nat} {m : Memory w} (h : Memory.Absent k m) : Memory.read m k = 0#w := by
  induction m with
  | nil => rfl
  | cons c m ih =>
    have hc : c.1 ≠ k := h c (by simp)
    simp [Memory.read, hc, ih (fun d hd => h d (List.mem_cons_of_mem _ hd))]

theorem Memory.absent_erase (k : Nat) (m : Memory w) : Memory.Absent k (Memory.erase k m) := by
  intro c hc
  simpa using (List.mem_filter.mp hc).2

theorem Memory.read_erase_ne {j k : Nat} (h : j ≠ k) (m : Memory w) :
    Memory.read (Memory.erase k m) j = Memory.read m j := by
  induction m with
  | nil => rfl
  | cons c m ih =>
    by_cases hk : c.1 = k
    · have hj : c.1 ≠ j := fun hj => h (hj.symm.trans hk)
      simpa [Memory.erase, Memory.read, hk, Ne.symm h] using ih
    · by_cases hj : c.1 = j
      · simp [Memory.erase, Memory.read, hj, h]
      · simpa [Memory.erase, Memory.read, hk, hj] using ih

theorem Memory.read_place_self {k : Nat} {m : Memory w} (v : BitVec w) (h : Memory.Absent k m) :
    Memory.read (Memory.place k v m) k = v := by
  induction m with
  | nil => simp [Memory.place, Memory.read]
  | cons c m ih =>
    have hc : c.1 ≠ k := h c (by simp)
    by_cases hk : k < c.1
    · simp [Memory.place, Memory.read, hk]
    · simpa [Memory.place, Memory.read, hk, hc] using ih fun d hd => h d (List.mem_cons_of_mem _ hd)

theorem Memory.read_place_ne {j k : Nat} (v : BitVec w) (h : j ≠ k) (m : Memory w) :
    Memory.read (Memory.place k v m) j = Memory.read m j := by
  induction m with
  | nil => simp [Memory.place, Memory.read, Ne.symm h]
  | cons c m ih =>
    by_cases hk : k < c.1
    · simp [Memory.place, Memory.read, hk, Ne.symm h]
    · by_cases hj : c.1 = j
      · simp [Memory.place, Memory.read, hj, hj ▸ hk]
      · simpa [Memory.place, Memory.read, hk, hj] using ih

/-- A read after a write: the written entry has the value written, every other is as before. -/
theorem Memory.read_write (m : Memory w) (k j : Nat) (v : BitVec w) :
    Memory.read (Memory.write m k v) j = if j = k then v else Memory.read m j := by
  unfold Memory.write
  by_cases hv : v = 0#w
  · by_cases hj : j = k
    · simp [hv, hj, Memory.read_of_absent (Memory.absent_erase k m)]
    · simp [hv, hj, Memory.read_erase_ne hj]
  · by_cases hj : j = k
    · simp [hv, hj, Memory.read_place_self v (Memory.absent_erase k m)]
    · simp [hv, hj, Memory.read_place_ne v hj, Memory.read_erase_ne hj]

@[simp] theorem Memory.read_write_self (m : Memory w) (k : Nat) (v : BitVec w) :
    Memory.read (Memory.write m k v) k = v := by simp [Memory.read_write]

theorem Memory.read_write_ne (m : Memory w) {k j : Nat} (v : BitVec w) (h : j ≠ k) :
    Memory.read (Memory.write m k v) j = Memory.read m j := by simp [Memory.read_write, h]

theorem Memory.wf_cons {c : Nat × BitVec w} {m : Memory w} :
    Memory.wf (c :: m) = true ↔ c.2 ≠ 0#w ∧ (∀ d ∈ m, c.1 < d.1) ∧ Memory.wf m = true := by
  simp [Memory.wf, and_assoc]

theorem Memory.wf_erase (k : Nat) {m : Memory w} (h : Memory.wf m = true) : Memory.wf (Memory.erase k m) = true := by
  induction m with
  | nil => rfl
  | cons c m ih =>
    obtain ⟨hv, hlt, hm⟩ := Memory.wf_cons.mp h
    by_cases hk : c.1 = k
    · simpa [Memory.erase, hk] using ih hm
    · have : Memory.erase k (c :: m) = c :: Memory.erase k m := by simp [Memory.erase, hk]
      rw [this]
      exact Memory.wf_cons.mpr ⟨hv, fun d hd => hlt d (List.mem_filter.mp hd).1, ih hm⟩

theorem Memory.mem_place {k : Nat} {v : BitVec w} {m : Memory w} {d : Nat × BitVec w}
    (h : d ∈ Memory.place k v m) : d = (k, v) ∨ d ∈ m := by
  induction m with
  | nil => simpa [Memory.place] using h
  | cons c m ih =>
    by_cases hk : k < c.1
    · simpa [Memory.place, hk] using h
    · rcases (by simpa [Memory.place, hk] using h : d = c ∨ d ∈ Memory.place k v m) with h | h
      · simp [h]
      · rcases ih h with h | h <;> simp [h]

theorem Memory.wf_place {k : Nat} {v : BitVec w} {m : Memory w} (hv : v ≠ 0#w) (ha : Memory.Absent k m)
    (h : Memory.wf m = true) : Memory.wf (Memory.place k v m) = true := by
  induction m with
  | nil => simp [Memory.place, Memory.wf, hv]
  | cons c m ih =>
    obtain ⟨hc, hlt, hm⟩ := Memory.wf_cons.mp h
    by_cases hk : k < c.1
    · have : Memory.place k v (c :: m) = (k, v) :: c :: m := by simp [Memory.place, hk]
      rw [this]
      refine Memory.wf_cons.mpr ⟨hv, ?_, h⟩
      intro d hd
      rcases List.mem_cons.mp hd with rfl | hd
      · exact hk
      · exact lt_trans hk (hlt d hd)
    · have hne : c.1 ≠ k := ha c (by simp)
      have : Memory.place k v (c :: m) = c :: Memory.place k v m := by simp [Memory.place, hk]
      rw [this]
      refine Memory.wf_cons.mpr ⟨hc, ?_, ih (fun d hd => ha d (List.mem_cons_of_mem _ hd)) hm⟩
      intro d hd
      rcases Memory.mem_place hd with rfl | hd
      · exact lt_of_le_of_ne (not_lt.mp hk) hne
      · exact hlt d hd

/-- Every write keeps the canonical form. -/
theorem Memory.wf_write {m : Memory w} (k : Nat) (v : BitVec w) (h : Memory.wf m = true) :
    Memory.wf (Memory.write m k v) = true := by
  unfold Memory.write
  split
  · exact Memory.wf_erase k h
  · exact Memory.wf_place ‹_› (Memory.absent_erase k m) (Memory.wf_erase k h)

theorem Memory.read_below {c : Nat × BitVec w} {m : Memory w} (h : Memory.wf (c :: m) = true) {k : Nat}
    (hk : k < c.1) : Memory.read (c :: m) k = 0#w := by
  obtain ⟨-, hlt, -⟩ := Memory.wf_cons.mp h
  apply Memory.read_of_absent
  intro d hd
  rcases List.mem_cons.mp hd with rfl | hd
  · omega
  · have := hlt d hd
    omega

/-- In the canonical form, tables that read alike are equal data. -/
theorem Memory.ext_of_wf {m n : Memory w} (hm : Memory.wf m = true) (hn : Memory.wf n = true)
    (h : ∀ k, Memory.read m k = Memory.read n k) : m = n := by
  induction m generalizing n with
  | nil =>
    cases n with
    | nil => rfl
    | cons d n =>
      have := h d.1
      simp [Memory.read, eq_comm, (Memory.wf_cons.mp hn).1] at this
  | cons c m ih =>
    cases n with
    | nil =>
      have := h c.1
      simp [Memory.read, (Memory.wf_cons.mp hm).1] at this
    | cons d n =>
      obtain ⟨hc, hclt, hm'⟩ := Memory.wf_cons.mp hm
      obtain ⟨hd, hdlt, hn'⟩ := Memory.wf_cons.mp hn
      have hkey : c.1 = d.1 := by
        rcases lt_trichotomy c.1 d.1 with hlt | heq | hlt
        · have := h c.1
          rw [Memory.read_below hn hlt] at this
          simp [Memory.read, hc] at this
        · exact heq
        · have := h d.1
          rw [Memory.read_below hm hlt] at this
          simp [Memory.read, eq_comm, hd] at this
      have hval : c.2 = d.2 := by simpa [Memory.read, hkey] using h c.1
      have htail : m = n := by
        apply ih hm' hn'
        intro k
        by_cases hk : c.1 = k
        · rw [Memory.read_of_absent (fun e he => by have := hclt e he; omega),
            Memory.read_of_absent (fun e he => by have := hdlt e he; omega)]
        · simpa [Memory.read, hk, hkey ▸ hk] using h k
      rw [htail, Prod.ext hkey hval]

/-! The layer memory's accessors: distinct entries have distinct indices. -/

theorem chordIndex_inj {l l' i i' : Byte} : chordIndex l i = chordIndex l' i' ↔ l = l' ∧ i = i' := by
  unfold chordIndex
  have := i.isLt
  have := i'.isLt
  constructor
  · intro h
    exact ⟨BitVec.eq_of_toNat_eq (by omega), BitVec.eq_of_toNat_eq (by omega)⟩
  · rintro ⟨rfl, rfl⟩
    rfl

theorem countIndex_inj {l l' : Byte} : countIndex l = countIndex l' ↔ l = l' :=
  ⟨fun h => BitVec.eq_of_toNat_eq h, fun h => by rw [h]⟩

theorem modIndex_inj {l l' : Byte} {b b' : BitVec 4} : modIndex l b = modIndex l' b' ↔ l = l' ∧ b = b' := by
  unfold modIndex
  have := b.isLt
  have := b'.isLt
  constructor
  · intro h
    exact ⟨BitVec.eq_of_toNat_eq (by omega), BitVec.eq_of_toNat_eq (by omega)⟩
  · rintro ⟨rfl, rfl⟩
    rfl

/-- `chord` after `setChord`: the entry written, every other as before. -/
theorem LayerMem.chord_setChord (m : LayerMem) (l i l' i' : Byte) (v : Word) :
    (m.setChord l i v).chord l' i' = if l' = l ∧ i' = i then v else m.chord l' i' := by
  simp [LayerMem.chord, LayerMem.setChord, Memory.read_write, chordIndex_inj]

/-- `count` after `setCount`. -/
theorem LayerMem.count_setCount (m : LayerMem) (l n l' : Byte) :
    (m.setCount l n).count l' = if l' = l then n else m.count l' := by
  simp [LayerMem.count, LayerMem.setCount, Memory.read_write, countIndex_inj]

/-- `mod` after `setMod`. -/
theorem LayerMem.mod_setMod (m : LayerMem) (l : Byte) (b : BitVec 4) (v : Byte) (l' : Byte) (b' : BitVec 4) :
    (m.setMod l b v).mod l' b' = if l' = l ∧ b' = b then v else m.mod l' b' := by
  simp [LayerMem.mod, LayerMem.setMod, Memory.read_write, modIndex_inj]

@[simp] theorem LayerMem.count_setChord (m : LayerMem) (l i : Byte) (v : Word) (l' : Byte) :
    (m.setChord l i v).count l' = m.count l' := rfl

@[simp] theorem LayerMem.mod_setChord (m : LayerMem) (l i : Byte) (v : Word) (l' : Byte) (b : BitVec 4) :
    (m.setChord l i v).mod l' b = m.mod l' b := rfl

@[simp] theorem LayerMem.chord_setCount (m : LayerMem) (l n l' i : Byte) :
    (m.setCount l n).chord l' i = m.chord l' i := rfl

@[simp] theorem LayerMem.mod_setCount (m : LayerMem) (l n l' : Byte) (b : BitVec 4) :
    (m.setCount l n).mod l' b = m.mod l' b := rfl

@[simp] theorem LayerMem.chord_setMod (m : LayerMem) (l : Byte) (b : BitVec 4) (v l' i : Byte) :
    (m.setMod l b v).chord l' i = m.chord l' i := rfl

@[simp] theorem LayerMem.count_setMod (m : LayerMem) (l : Byte) (b : BitVec 4) (v l' : Byte) :
    (m.setMod l b v).count l' = m.count l' := rfl

end Sys2Proof.Machine
end

