-- ==== Sys2Proof/Laws/State.lean ====
section
/-! SUPPORT. One lemma per field per update of State, each true by rfl, so that no proof unfolds a record update. -/

namespace Sys2Proof.Machine

@[simp] theorem State.withCmdLast_cfg (v : Word) (s : State) : (s.withCmdLast v).cfg = s.cfg := rfl
@[simp] theorem State.withCmdLast_host (v : Word) (s : State) : (s.withCmdLast v).host = { s.host with cmdLast := v } := rfl
@[simp] theorem State.withCmdLast_tracker (v : Word) (s : State) : (s.withCmdLast v).tracker = s.tracker := rfl
@[simp] theorem State.withCmdLast_kh (v : Word) (s : State) : (s.withCmdLast v).kh = s.kh := rfl
@[simp] theorem State.withCmdLast_res (v : Word) (s : State) : (s.withCmdLast v).res = s.res := rfl
@[simp] theorem State.withCmdLast_key (v : Word) (s : State) : (s.withCmdLast v).key = s.key := rfl
@[simp] theorem State.withCmdLast_layers (v : Word) (s : State) : (s.withCmdLast v).layers = s.layers := rfl
@[simp] theorem State.withCmdLast_link (v : Word) (s : State) : (s.withCmdLast v).link = s.link := rfl
@[simp] theorem State.withCmdLast_sync (v : Word) (s : State) : (s.withCmdLast v).sync = s.sync := rfl
@[simp] theorem State.withCmdLast_txBuf (v : Word) (s : State) : (s.withCmdLast v).txBuf = s.txBuf := rfl
@[simp] theorem State.withCmdLast_rxBuf (v : Word) (s : State) : (s.withCmdLast v).rxBuf = s.rxBuf := rfl
@[simp] theorem State.withCmdLast_env (v : Word) (s : State) : (s.withCmdLast v).env = s.env := rfl

@[simp] theorem State.respond_cfg (r : Resp) (s : State) : (s.respond r).cfg = s.cfg := rfl
@[simp] theorem State.respond_host (r : Resp) (s : State) : (s.respond r).host = { s.host with cmdResp := r } := rfl
@[simp] theorem State.respond_tracker (r : Resp) (s : State) : (s.respond r).tracker = s.tracker := rfl
@[simp] theorem State.respond_kh (r : Resp) (s : State) : (s.respond r).kh = s.kh := rfl
@[simp] theorem State.respond_res (r : Resp) (s : State) : (s.respond r).res = s.res := rfl
@[simp] theorem State.respond_key (r : Resp) (s : State) : (s.respond r).key = s.key := rfl
@[simp] theorem State.respond_layers (r : Resp) (s : State) : (s.respond r).layers = s.layers := rfl
@[simp] theorem State.respond_link (r : Resp) (s : State) : (s.respond r).link = s.link := rfl
@[simp] theorem State.respond_sync (r : Resp) (s : State) : (s.respond r).sync = s.sync := rfl
@[simp] theorem State.respond_txBuf (r : Resp) (s : State) : (s.respond r).txBuf = s.txBuf := rfl
@[simp] theorem State.respond_rxBuf (r : Resp) (s : State) : (s.respond r).rxBuf = s.rxBuf := rfl
@[simp] theorem State.respond_env (r : Resp) (s : State) : (s.respond r).env = s.env := rfl

@[simp] theorem State.withArg0_cfg (v : Word) (s : State) : (s.withArg0 v).cfg = s.cfg := rfl
@[simp] theorem State.withArg0_host (v : Word) (s : State) : (s.withArg0 v).host = { s.host with arg0 := v } := rfl
@[simp] theorem State.withArg0_tracker (v : Word) (s : State) : (s.withArg0 v).tracker = s.tracker := rfl
@[simp] theorem State.withArg0_kh (v : Word) (s : State) : (s.withArg0 v).kh = s.kh := rfl
@[simp] theorem State.withArg0_res (v : Word) (s : State) : (s.withArg0 v).res = s.res := rfl
@[simp] theorem State.withArg0_key (v : Word) (s : State) : (s.withArg0 v).key = s.key := rfl
@[simp] theorem State.withArg0_layers (v : Word) (s : State) : (s.withArg0 v).layers = s.layers := rfl
@[simp] theorem State.withArg0_link (v : Word) (s : State) : (s.withArg0 v).link = s.link := rfl
@[simp] theorem State.withArg0_sync (v : Word) (s : State) : (s.withArg0 v).sync = s.sync := rfl
@[simp] theorem State.withArg0_txBuf (v : Word) (s : State) : (s.withArg0 v).txBuf = s.txBuf := rfl
@[simp] theorem State.withArg0_rxBuf (v : Word) (s : State) : (s.withArg0 v).rxBuf = s.rxBuf := rfl
@[simp] theorem State.withArg0_env (v : Word) (s : State) : (s.withArg0 v).env = s.env := rfl

@[simp] theorem State.withArg1_cfg (v : Word) (s : State) : (s.withArg1 v).cfg = s.cfg := rfl
@[simp] theorem State.withArg1_host (v : Word) (s : State) : (s.withArg1 v).host = { s.host with arg1 := v } := rfl
@[simp] theorem State.withArg1_tracker (v : Word) (s : State) : (s.withArg1 v).tracker = s.tracker := rfl
@[simp] theorem State.withArg1_kh (v : Word) (s : State) : (s.withArg1 v).kh = s.kh := rfl
@[simp] theorem State.withArg1_res (v : Word) (s : State) : (s.withArg1 v).res = s.res := rfl
@[simp] theorem State.withArg1_key (v : Word) (s : State) : (s.withArg1 v).key = s.key := rfl
@[simp] theorem State.withArg1_layers (v : Word) (s : State) : (s.withArg1 v).layers = s.layers := rfl
@[simp] theorem State.withArg1_link (v : Word) (s : State) : (s.withArg1 v).link = s.link := rfl
@[simp] theorem State.withArg1_sync (v : Word) (s : State) : (s.withArg1 v).sync = s.sync := rfl
@[simp] theorem State.withArg1_txBuf (v : Word) (s : State) : (s.withArg1 v).txBuf = s.txBuf := rfl
@[simp] theorem State.withArg1_rxBuf (v : Word) (s : State) : (s.withArg1 v).rxBuf = s.rxBuf := rfl
@[simp] theorem State.withArg1_env (v : Word) (s : State) : (s.withArg1 v).env = s.env := rfl

@[simp] theorem State.withTracker_cfg (t : Tracker) (s : State) : (s.withTracker t).cfg = s.cfg := rfl
@[simp] theorem State.withTracker_host (t : Tracker) (s : State) : (s.withTracker t).host = s.host := rfl
@[simp] theorem State.withTracker_tracker (t : Tracker) (s : State) : (s.withTracker t).tracker = t := rfl
@[simp] theorem State.withTracker_kh (t : Tracker) (s : State) : (s.withTracker t).kh = s.kh := rfl
@[simp] theorem State.withTracker_res (t : Tracker) (s : State) : (s.withTracker t).res = s.res := rfl
@[simp] theorem State.withTracker_key (t : Tracker) (s : State) : (s.withTracker t).key = s.key := rfl
@[simp] theorem State.withTracker_layers (t : Tracker) (s : State) : (s.withTracker t).layers = s.layers := rfl
@[simp] theorem State.withTracker_link (t : Tracker) (s : State) : (s.withTracker t).link = s.link := rfl
@[simp] theorem State.withTracker_sync (t : Tracker) (s : State) : (s.withTracker t).sync = s.sync := rfl
@[simp] theorem State.withTracker_txBuf (t : Tracker) (s : State) : (s.withTracker t).txBuf = s.txBuf := rfl
@[simp] theorem State.withTracker_rxBuf (t : Tracker) (s : State) : (s.withTracker t).rxBuf = s.rxBuf := rfl
@[simp] theorem State.withTracker_env (t : Tracker) (s : State) : (s.withTracker t).env = s.env := rfl

@[simp] theorem State.withKh_cfg (k : KeyHandler) (s : State) : (s.withKh k).cfg = s.cfg := rfl
@[simp] theorem State.withKh_host (k : KeyHandler) (s : State) : (s.withKh k).host = s.host := rfl
@[simp] theorem State.withKh_tracker (k : KeyHandler) (s : State) : (s.withKh k).tracker = s.tracker := rfl
@[simp] theorem State.withKh_kh (k : KeyHandler) (s : State) : (s.withKh k).kh = k := rfl
@[simp] theorem State.withKh_res (k : KeyHandler) (s : State) : (s.withKh k).res = s.res := rfl
@[simp] theorem State.withKh_key (k : KeyHandler) (s : State) : (s.withKh k).key = s.key := rfl
@[simp] theorem State.withKh_layers (k : KeyHandler) (s : State) : (s.withKh k).layers = s.layers := rfl
@[simp] theorem State.withKh_link (k : KeyHandler) (s : State) : (s.withKh k).link = s.link := rfl
@[simp] theorem State.withKh_sync (k : KeyHandler) (s : State) : (s.withKh k).sync = s.sync := rfl
@[simp] theorem State.withKh_txBuf (k : KeyHandler) (s : State) : (s.withKh k).txBuf = s.txBuf := rfl
@[simp] theorem State.withKh_rxBuf (k : KeyHandler) (s : State) : (s.withKh k).rxBuf = s.rxBuf := rfl
@[simp] theorem State.withKh_env (k : KeyHandler) (s : State) : (s.withKh k).env = s.env := rfl

@[simp] theorem State.withRes_cfg (r : Results) (s : State) : (s.withRes r).cfg = s.cfg := rfl
@[simp] theorem State.withRes_host (r : Results) (s : State) : (s.withRes r).host = s.host := rfl
@[simp] theorem State.withRes_tracker (r : Results) (s : State) : (s.withRes r).tracker = s.tracker := rfl
@[simp] theorem State.withRes_kh (r : Results) (s : State) : (s.withRes r).kh = s.kh := rfl
@[simp] theorem State.withRes_res (r : Results) (s : State) : (s.withRes r).res = r := rfl
@[simp] theorem State.withRes_key (r : Results) (s : State) : (s.withRes r).key = s.key := rfl
@[simp] theorem State.withRes_layers (r : Results) (s : State) : (s.withRes r).layers = s.layers := rfl
@[simp] theorem State.withRes_link (r : Results) (s : State) : (s.withRes r).link = s.link := rfl
@[simp] theorem State.withRes_sync (r : Results) (s : State) : (s.withRes r).sync = s.sync := rfl
@[simp] theorem State.withRes_txBuf (r : Results) (s : State) : (s.withRes r).txBuf = s.txBuf := rfl
@[simp] theorem State.withRes_rxBuf (r : Results) (s : State) : (s.withRes r).rxBuf = s.rxBuf := rfl
@[simp] theorem State.withRes_env (r : Results) (s : State) : (s.withRes r).env = s.env := rfl

@[simp] theorem State.withKey_cfg (k : KeyOut) (s : State) : (s.withKey k).cfg = s.cfg := rfl
@[simp] theorem State.withKey_host (k : KeyOut) (s : State) : (s.withKey k).host = s.host := rfl
@[simp] theorem State.withKey_tracker (k : KeyOut) (s : State) : (s.withKey k).tracker = s.tracker := rfl
@[simp] theorem State.withKey_kh (k : KeyOut) (s : State) : (s.withKey k).kh = s.kh := rfl
@[simp] theorem State.withKey_res (k : KeyOut) (s : State) : (s.withKey k).res = s.res := rfl
@[simp] theorem State.withKey_key (k : KeyOut) (s : State) : (s.withKey k).key = k := rfl
@[simp] theorem State.withKey_layers (k : KeyOut) (s : State) : (s.withKey k).layers = s.layers := rfl
@[simp] theorem State.withKey_link (k : KeyOut) (s : State) : (s.withKey k).link = s.link := rfl
@[simp] theorem State.withKey_sync (k : KeyOut) (s : State) : (s.withKey k).sync = s.sync := rfl
@[simp] theorem State.withKey_txBuf (k : KeyOut) (s : State) : (s.withKey k).txBuf = s.txBuf := rfl
@[simp] theorem State.withKey_rxBuf (k : KeyOut) (s : State) : (s.withKey k).rxBuf = s.rxBuf := rfl
@[simp] theorem State.withKey_env (k : KeyOut) (s : State) : (s.withKey k).env = s.env := rfl

@[simp] theorem State.withLayers_cfg (m : LayerMem) (s : State) : (s.withLayers m).cfg = s.cfg := rfl
@[simp] theorem State.withLayers_host (m : LayerMem) (s : State) : (s.withLayers m).host = s.host := rfl
@[simp] theorem State.withLayers_tracker (m : LayerMem) (s : State) : (s.withLayers m).tracker = s.tracker := rfl
@[simp] theorem State.withLayers_kh (m : LayerMem) (s : State) : (s.withLayers m).kh = s.kh := rfl
@[simp] theorem State.withLayers_res (m : LayerMem) (s : State) : (s.withLayers m).res = s.res := rfl
@[simp] theorem State.withLayers_key (m : LayerMem) (s : State) : (s.withLayers m).key = s.key := rfl
@[simp] theorem State.withLayers_layers (m : LayerMem) (s : State) : (s.withLayers m).layers = m := rfl
@[simp] theorem State.withLayers_link (m : LayerMem) (s : State) : (s.withLayers m).link = s.link := rfl
@[simp] theorem State.withLayers_sync (m : LayerMem) (s : State) : (s.withLayers m).sync = s.sync := rfl
@[simp] theorem State.withLayers_txBuf (m : LayerMem) (s : State) : (s.withLayers m).txBuf = s.txBuf := rfl
@[simp] theorem State.withLayers_rxBuf (m : LayerMem) (s : State) : (s.withLayers m).rxBuf = s.rxBuf := rfl
@[simp] theorem State.withLayers_env (m : LayerMem) (s : State) : (s.withLayers m).env = s.env := rfl

@[simp] theorem State.withLink_cfg (l : Link) (s : State) : (s.withLink l).cfg = s.cfg := rfl
@[simp] theorem State.withLink_host (l : Link) (s : State) : (s.withLink l).host = s.host := rfl
@[simp] theorem State.withLink_tracker (l : Link) (s : State) : (s.withLink l).tracker = s.tracker := rfl
@[simp] theorem State.withLink_kh (l : Link) (s : State) : (s.withLink l).kh = s.kh := rfl
@[simp] theorem State.withLink_res (l : Link) (s : State) : (s.withLink l).res = s.res := rfl
@[simp] theorem State.withLink_key (l : Link) (s : State) : (s.withLink l).key = s.key := rfl
@[simp] theorem State.withLink_layers (l : Link) (s : State) : (s.withLink l).layers = s.layers := rfl
@[simp] theorem State.withLink_link (l : Link) (s : State) : (s.withLink l).link = l := rfl
@[simp] theorem State.withLink_sync (l : Link) (s : State) : (s.withLink l).sync = s.sync := rfl
@[simp] theorem State.withLink_txBuf (l : Link) (s : State) : (s.withLink l).txBuf = s.txBuf := rfl
@[simp] theorem State.withLink_rxBuf (l : Link) (s : State) : (s.withLink l).rxBuf = s.rxBuf := rfl
@[simp] theorem State.withLink_env (l : Link) (s : State) : (s.withLink l).env = s.env := rfl

@[simp] theorem State.withSync_cfg (y : Sync) (s : State) : (s.withSync y).cfg = s.cfg := rfl
@[simp] theorem State.withSync_host (y : Sync) (s : State) : (s.withSync y).host = s.host := rfl
@[simp] theorem State.withSync_tracker (y : Sync) (s : State) : (s.withSync y).tracker = s.tracker := rfl
@[simp] theorem State.withSync_kh (y : Sync) (s : State) : (s.withSync y).kh = s.kh := rfl
@[simp] theorem State.withSync_res (y : Sync) (s : State) : (s.withSync y).res = s.res := rfl
@[simp] theorem State.withSync_key (y : Sync) (s : State) : (s.withSync y).key = s.key := rfl
@[simp] theorem State.withSync_layers (y : Sync) (s : State) : (s.withSync y).layers = s.layers := rfl
@[simp] theorem State.withSync_link (y : Sync) (s : State) : (s.withSync y).link = s.link := rfl
@[simp] theorem State.withSync_sync (y : Sync) (s : State) : (s.withSync y).sync = y := rfl
@[simp] theorem State.withSync_txBuf (y : Sync) (s : State) : (s.withSync y).txBuf = s.txBuf := rfl
@[simp] theorem State.withSync_rxBuf (y : Sync) (s : State) : (s.withSync y).rxBuf = s.rxBuf := rfl
@[simp] theorem State.withSync_env (y : Sync) (s : State) : (s.withSync y).env = s.env := rfl

@[simp] theorem State.withTxBuf_cfg (m : Memory 8) (s : State) : (s.withTxBuf m).cfg = s.cfg := rfl
@[simp] theorem State.withTxBuf_host (m : Memory 8) (s : State) : (s.withTxBuf m).host = s.host := rfl
@[simp] theorem State.withTxBuf_tracker (m : Memory 8) (s : State) : (s.withTxBuf m).tracker = s.tracker := rfl
@[simp] theorem State.withTxBuf_kh (m : Memory 8) (s : State) : (s.withTxBuf m).kh = s.kh := rfl
@[simp] theorem State.withTxBuf_res (m : Memory 8) (s : State) : (s.withTxBuf m).res = s.res := rfl
@[simp] theorem State.withTxBuf_key (m : Memory 8) (s : State) : (s.withTxBuf m).key = s.key := rfl
@[simp] theorem State.withTxBuf_layers (m : Memory 8) (s : State) : (s.withTxBuf m).layers = s.layers := rfl
@[simp] theorem State.withTxBuf_link (m : Memory 8) (s : State) : (s.withTxBuf m).link = s.link := rfl
@[simp] theorem State.withTxBuf_sync (m : Memory 8) (s : State) : (s.withTxBuf m).sync = s.sync := rfl
@[simp] theorem State.withTxBuf_txBuf (m : Memory 8) (s : State) : (s.withTxBuf m).txBuf = m := rfl
@[simp] theorem State.withTxBuf_rxBuf (m : Memory 8) (s : State) : (s.withTxBuf m).rxBuf = s.rxBuf := rfl
@[simp] theorem State.withTxBuf_env (m : Memory 8) (s : State) : (s.withTxBuf m).env = s.env := rfl

@[simp] theorem State.withRxBuf_cfg (m : Memory 8) (s : State) : (s.withRxBuf m).cfg = s.cfg := rfl
@[simp] theorem State.withRxBuf_host (m : Memory 8) (s : State) : (s.withRxBuf m).host = s.host := rfl
@[simp] theorem State.withRxBuf_tracker (m : Memory 8) (s : State) : (s.withRxBuf m).tracker = s.tracker := rfl
@[simp] theorem State.withRxBuf_kh (m : Memory 8) (s : State) : (s.withRxBuf m).kh = s.kh := rfl
@[simp] theorem State.withRxBuf_res (m : Memory 8) (s : State) : (s.withRxBuf m).res = s.res := rfl
@[simp] theorem State.withRxBuf_key (m : Memory 8) (s : State) : (s.withRxBuf m).key = s.key := rfl
@[simp] theorem State.withRxBuf_layers (m : Memory 8) (s : State) : (s.withRxBuf m).layers = s.layers := rfl
@[simp] theorem State.withRxBuf_link (m : Memory 8) (s : State) : (s.withRxBuf m).link = s.link := rfl
@[simp] theorem State.withRxBuf_sync (m : Memory 8) (s : State) : (s.withRxBuf m).sync = s.sync := rfl
@[simp] theorem State.withRxBuf_txBuf (m : Memory 8) (s : State) : (s.withRxBuf m).txBuf = s.txBuf := rfl
@[simp] theorem State.withRxBuf_rxBuf (m : Memory 8) (s : State) : (s.withRxBuf m).rxBuf = m := rfl
@[simp] theorem State.withRxBuf_env (m : Memory 8) (s : State) : (s.withRxBuf m).env = s.env := rfl

@[simp] theorem State.withEnv_cfg (e : Env) (s : State) : (s.withEnv e).cfg = s.cfg := rfl
@[simp] theorem State.withEnv_host (e : Env) (s : State) : (s.withEnv e).host = s.host := rfl
@[simp] theorem State.withEnv_tracker (e : Env) (s : State) : (s.withEnv e).tracker = s.tracker := rfl
@[simp] theorem State.withEnv_kh (e : Env) (s : State) : (s.withEnv e).kh = s.kh := rfl
@[simp] theorem State.withEnv_res (e : Env) (s : State) : (s.withEnv e).res = s.res := rfl
@[simp] theorem State.withEnv_key (e : Env) (s : State) : (s.withEnv e).key = s.key := rfl
@[simp] theorem State.withEnv_layers (e : Env) (s : State) : (s.withEnv e).layers = s.layers := rfl
@[simp] theorem State.withEnv_link (e : Env) (s : State) : (s.withEnv e).link = s.link := rfl
@[simp] theorem State.withEnv_sync (e : Env) (s : State) : (s.withEnv e).sync = s.sync := rfl
@[simp] theorem State.withEnv_txBuf (e : Env) (s : State) : (s.withEnv e).txBuf = s.txBuf := rfl
@[simp] theorem State.withEnv_rxBuf (e : Env) (s : State) : (s.withEnv e).rxBuf = s.rxBuf := rfl
@[simp] theorem State.withEnv_env (e : Env) (s : State) : (s.withEnv e).env = e := rfl

end Sys2Proof.Machine
end

