-- ==== Sys2Proof/Laws/Link.lean ====
section
/-! SUPPORT. The link state machine: once, what each shared operation can do, and what a cycle of it leaves alone. -/

namespace Sys2Proof.Machine

/-- Everything but the link registers, RX_BUF and the wait of R270 is the same: what the link state machine may change
by itself (R238). -/
structure State.LinkOnly (s t : State) : Prop where
  cfg : t.cfg = s.cfg
  host : t.host = s.host
  tracker : t.tracker = s.tracker
  kh : t.kh = s.kh
  res : t.res = s.res
  key : t.key = s.key
  layers : t.layers = s.layers
  sync : t.sync = s.sync
  txBuf : t.txBuf = s.txBuf
  env : t.env = { s.env with rereadWait := t.env.rereadWait }

theorem State.LinkOnly.refl (s : State) : s.LinkOnly s := by constructor <;> rfl

theorem State.LinkOnly.trans {s t u : State} (h : s.LinkOnly t) (k : t.LinkOnly u) : s.LinkOnly u where
  cfg := k.cfg.trans h.cfg
  host := k.host.trans h.host
  tracker := k.tracker.trans h.tracker
  kh := k.kh.trans h.kh
  res := k.res.trans h.res
  key := k.key.trans h.key
  layers := k.layers.trans h.layers
  sync := k.sync.trans h.sync
  txBuf := k.txBuf.trans h.txBuf
  env := by rw [k.env, h.env]

theorem State.linkOnly_withLink (l : Link) (s : State) : s.LinkOnly (s.withLink l) := by constructor <;> rfl

theorem State.linkOnly_withRxBuf (m : Memory 8) (s : State) : s.LinkOnly (s.withRxBuf m) := by constructor <;> rfl

theorem State.linkOnly_startRereadWait (s : State) : s.LinkOnly s.startRereadWait := by constructor <;> rfl

@[simp] theorem State.startRereadWait_link (s : State) : s.startRereadWait.link = s.link := rfl
@[simp] theorem State.startRereadWait_rxBuf (s : State) : s.startRereadWait.rxBuf = s.rxBuf := rfl

theorem State.linkOnly_endTransaction (r : Result) (n : Byte) (s : State) : s.LinkOnly (s.endTransaction r n) :=
  State.linkOnly_withLink _ s

@[simp] theorem State.endTransaction_link (r : Result) (n : Byte) (s : State) :
    (s.endTransaction r n).link =
      { s.link with pads := Pads.released, result := r, count := n, lstate := .idle } := rfl
@[simp] theorem State.endTransaction_rxBuf (r : Result) (n : Byte) (s : State) :
    (s.endTransaction r n).rxBuf = s.rxBuf := rfl

/-! byte_done and destuffing. -/

/-- `byte_done` stores below the capacity and counts up to 255 (R190). -/
theorem State.byteDone_spec (b : Byte) (s : State) :
    s.LinkOnly (s.byteDone b) ∧ (s.byteDone b).env = s.env ∧
    (s.byteDone b).link = { s.link with
      rCount := if s.link.rCount.toNat < 255 then s.link.rCount + 1#8 else s.link.rCount } ∧
    (s.byteDone b).rxBuf =
      if s.link.rCount.toNat < s.link.rCap.toNat then Memory.write s.rxBuf s.link.rCount.toNat b else s.rxBuf := by
  unfold State.byteDone
  refine ⟨?_, ?_, ?_, ?_⟩
  · constructor <;> (repeat' split) <;> rfl
  all_goals (repeat' split) <;> rfl

@[simp] theorem State.setNbits_cfg (n : BitVec 3) (s : State) : (s.setNbits n).cfg = s.cfg := rfl
@[simp] theorem State.setNbits_link (n : BitVec 3) (s : State) :
    (s.setNbits n).link = { s.link with rNbits := n } := rfl
@[simp] theorem State.setNbits_rxBuf (n : BitVec 3) (s : State) : (s.setNbits n).rxBuf = s.rxBuf := rfl
@[simp] theorem State.setNbits_env (n : BitVec 3) (s : State) : (s.setNbits n).env = s.env := rfl

@[simp] theorem Link.shiftBit_rNbits (o : BitOrder) (x : Bool) (l : Link) : (l.shiftBit o x).rNbits = l.rNbits := rfl
@[simp] theorem Link.shiftBit_rCount (o : BitOrder) (x : Bool) (l : Link) : (l.shiftBit o x).rCount = l.rCount := rfl
@[simp] theorem Link.shiftBit_rCap (o : BitOrder) (x : Bool) (l : Link) : (l.shiftBit o x).rCap = l.rCap := rfl
@[simp] theorem Link.shiftBit_rSr (o : BitOrder) (x : Bool) (l : Link) :
    (l.shiftBit o x).rSr = shiftIn o x l.rSr := rfl

/-- A data bit that is not the eighth of its byte (R187). -/
theorem State.takeBit_of_lt {x : Bool} {s : State} (h : s.link.rNbits ≠ 7#3) :
    s.takeBit x = (s.withLink (s.link.shiftBit s.cfg.bitOrder x)).setNbits (s.link.rNbits + 1#3) := by
  simp [State.takeBit, h]

/-- The eighth data bit of a byte completes it (R187). -/
theorem State.takeBit_of_eq {x : Bool} {s : State} (h : s.link.rNbits = 7#3) :
    s.takeBit x = ((s.withLink (s.link.shiftBit s.cfg.bitOrder x)).byteDone
      (shiftIn s.cfg.bitOrder x s.link.rSr)).setNbits 0#3 := by
  simp [State.takeBit, h]

/-- A data bit changes the reader's registers and RX_BUF alone. -/
theorem State.takeBit_frame (x : Bool) (s : State) :
    s.LinkOnly (s.takeBit x) ∧ (s.takeBit x).env = s.env ∧
    (s.takeBit x).link = { s.link.shiftBit s.cfg.bitOrder x with
      rCount := (s.takeBit x).link.rCount, rNbits := (s.takeBit x).link.rNbits } := by
  by_cases h : s.link.rNbits = 7#3
  · rw [State.takeBit_of_eq h]
    obtain ⟨hf, he, hl, -⟩ := State.byteDone_spec (shiftIn s.cfg.bitOrder x s.link.rSr)
      (s.withLink (s.link.shiftBit s.cfg.bitOrder x))
    refine ⟨((State.linkOnly_withLink _ s).trans hf).trans (State.linkOnly_withLink _ _), he, ?_⟩
    rw [State.setNbits_link, hl]
    rfl
  · rw [State.takeBit_of_lt h]
    exact ⟨(State.linkOnly_withLink _ s).trans (State.linkOnly_withLink _ _), rfl, rfl⟩

/-- A destuff step changes the reader's registers, RX_BUF and nothing else; it ends no transaction by itself (R187). -/
theorem State.destuff_frame (x : Bool) (s : State) :
    s.LinkOnly (s.destuff x).1 ∧ (s.destuff x).1.env = s.env ∧
    (s.destuff x).1.link = { s.link with
      rCount := (s.destuff x).1.link.rCount, rNbits := (s.destuff x).1.link.rNbits
      rSr := (s.destuff x).1.link.rSr, rOnes := (s.destuff x).1.link.rOnes
      rTail := (s.destuff x).1.link.rTail } := by
  unfold State.destuff
  split
  · split <;> exact ⟨State.LinkOnly.refl s, rfl, rfl⟩
  · split
    · split <;> exact ⟨State.linkOnly_withLink _ s, rfl, rfl⟩
    · obtain ⟨hf, he, hl⟩ := State.takeBit_frame x s
      exact ⟨hf, he, by rw [hl]; rfl⟩

/-! The waits and the fixed phases. -/

/-- A bounded wait leaves, fails with Timeout at its last poll, or counts a failed poll (R194). -/
theorem State.boundedWait_cases (cond : Bool) (leave : State → State) (s : State) :
    (cond = true ∧ s.boundedWait cond leave = leave s) ∨
    (cond = false ∧ s.link.tmo.toNat + 1 = s.cfg.timeout ∧ s.boundedWait cond leave = s.failTimeout) ∨
    (cond = false ∧ s.link.tmo.toNat + 1 ≠ s.cfg.timeout ∧
      s.boundedWait cond leave = s.withLink { s.link with tmo := s.link.tmo + 1#16 }) := by
  cases cond
  · by_cases h : s.link.tmo.toNat + 1 = s.cfg.timeout
    · exact .inr (.inl ⟨rfl, h, by simp [State.boundedWait, h]⟩)
    · exact .inr (.inr ⟨rfl, h, by simp [State.boundedWait, h]⟩)
  · exact .inl ⟨rfl, rfl⟩

/-- A fixed phase leaves in its last cycle, or counts the cycle (R198, R199, R202). -/
theorem State.fixedPhase_cases (n : Nat) (leave : State → State) (s : State) :
    (s.link.dly.toNat + 1 = n ∧ s.fixedPhase n leave = leave s) ∨
    (s.link.dly.toNat + 1 ≠ n ∧ s.fixedPhase n leave = s.withLink { s.link with dly := s.link.dly + 1#16 }) := by
  by_cases h : s.link.dly.toNat + 1 = n
  · exact .inl ⟨h, by simp [State.fixedPhase, h]⟩
  · exact .inr ⟨h, by simp [State.fixedPhase, h]⟩

theorem State.linkOnly_failTimeout (s : State) : s.LinkOnly s.failTimeout := by
  unfold State.failTimeout
  split
  · exact (State.linkOnly_endTransaction _ _ s).trans (State.linkOnly_startRereadWait _)
  · exact State.linkOnly_endTransaction _ _ s

/-- `fail(Timeout)`: both lines released, RESULT 5, COUNT `r_count` in a read and 0 in a write, IDLE (R207). -/
theorem State.failTimeout_link (s : State) :
    s.failTimeout.link = { s.link with
      pads := Pads.released, result := .timeout, lstate := .idle
      count := if s.link.lstate.isRead then s.link.rCount else 0#8 } := by
  unfold State.failTimeout
  split <;> rfl

@[simp] theorem State.failTimeout_rxBuf (s : State) : s.failTimeout.rxBuf = s.rxBuf := by
  unfold State.failTimeout
  split <;> rfl

theorem State.linkOnly_completeRead (e : Result) (s : State) : s.LinkOnly (s.completeRead e) := by
  unfold State.completeRead
  split
  · exact State.linkOnly_endTransaction _ _ s
  · exact (State.linkOnly_endTransaction _ _ s).trans (State.linkOnly_startRereadWait _)

/-- `complete(e)`: both lines released, the outcome saved, IDLE (R205). -/
theorem State.completeRead_link (e : Result) (s : State) :
    (s.completeRead e).link = { s.link with
      pads := Pads.released, result := e, count := s.link.rCount, lstate := .idle } := by
  unfold State.completeRead
  split <;> rfl

@[simp] theorem State.completeRead_rxBuf (e : Result) (s : State) : (s.completeRead e).rxBuf = s.rxBuf := by
  unfold State.completeRead
  split <;> rfl

/-- A sampled bit ends the read with the code of the destuff step, or the reader waits for the clock to fall (R203). -/
theorem State.sampleBit_cases (s : State) :
    (∃ t e, s.destuff s.datIn = (t, some e) ∧ s.sampleBit = t.completeRead e) ∨
    (∃ t, s.destuff s.datIn = (t, none) ∧
      s.sampleBit = t.withLink { t.link with tmo := 0#16, lstate := .rWaitLow }) := by
  rcases h : s.destuff s.datIn with ⟨t, _ | e⟩
  · exact .inr ⟨t, rfl, by simp [State.sampleBit, h]⟩
  · exact .inl ⟨t, e, rfl, by simp [State.sampleBit, h]⟩

theorem State.linkOnly_sampleBit (s : State) : s.LinkOnly s.sampleBit := by
  have hf := (State.destuff_frame s.datIn s).1
  rcases State.sampleBit_cases s with ⟨t, e, hd, h⟩ | ⟨t, hd, h⟩ <;> rw [h] <;> rw [hd] at hf
  · exact hf.trans (State.linkOnly_completeRead e t)
  · exact hf.trans (State.linkOnly_withLink _ t)

theorem State.linkOnly_leaveHigh (s : State) : s.LinkOnly s.leaveHigh := by
  unfold State.leaveHigh
  split
  · exact State.linkOnly_withLink _ s
  · exact State.linkOnly_endTransaction _ _ s

theorem State.linkOnly_boundedWait {cond : Bool} {leave : State → State} {s : State} (h : s.LinkOnly (leave s)) :
    s.LinkOnly (s.boundedWait cond leave) := by
  rcases State.boundedWait_cases cond leave s with ⟨-, e⟩ | ⟨-, -, e⟩ | ⟨-, -, e⟩ <;> rw [e]
  · exact h
  · exact State.linkOnly_failTimeout s
  · exact State.linkOnly_withLink _ s

theorem State.linkOnly_fixedPhase {n : Nat} {leave : State → State} {s : State} (h : s.LinkOnly (leave s)) :
    s.LinkOnly (s.fixedPhase n leave) := by
  rcases State.fixedPhase_cases n leave s with ⟨-, e⟩ | ⟨-, e⟩ <;> rw [e]
  · exact h
  · exact State.linkOnly_withLink _ s

/-- A cycle of the link state machine leaves the engine, the host registers, layer memory, TX_BUF and the synchronisers
alone (R140, R238). -/
theorem State.linkOnly_linkTick (s : State) : s.LinkOnly s.linkTick := by
  unfold State.linkTick
  split
  · exact State.LinkOnly.refl s
  · exact State.linkOnly_boundedWait (State.linkOnly_withLink _ s)
  · exact State.linkOnly_boundedWait (State.linkOnly_withLink _ s)
  · exact State.linkOnly_fixedPhase (State.linkOnly_withLink _ s)
  · exact State.linkOnly_fixedPhase (State.linkOnly_leaveHigh s)
  · exact State.linkOnly_boundedWait (State.linkOnly_withLink _ s)
  · exact State.linkOnly_fixedPhase (State.linkOnly_withLink _ s)
  · exact State.linkOnly_boundedWait (State.linkOnly_sampleBit s)
  · exact State.linkOnly_boundedWait (State.linkOnly_withLink _ s)

end Sys2Proof.Machine
end

