-- ==== Sys2Proof/Laws/Ops.lean ====
section
/-! SUPPORT. For each shared operation of the commands, once, everything it can do; and what the commands leave alone. -/

namespace Sys2Proof.Machine

/-! The outcomes of a checked and of a guarded command. -/

theorem State.checked_of_ok {ok : Bool} (f : State → State) (s : State) (h : ok = true) :
    s.checked ok f = .next ((f s).respond .accepted) := by simp [State.checked, h]

theorem State.checked_of_not_ok {ok : Bool} (f : State → State) (s : State) (h : ok = false) :
    s.checked ok f = .next (s.respond .illegalArgument) := by simp [State.checked, h]

/-- A checked command has its effect with ACCEPTED, or responds IllegalArgument and does no more. -/
theorem State.checked_cases {ok : Bool} {f : State → State} {s t : State} (h : s.checked ok f = .next t) :
    (ok = true ∧ t = (f s).respond .accepted) ∨ (ok = false ∧ t = s.respond .illegalArgument) := by
  cases ok
  · right
    simpa [State.checked, eq_comm] using h
  · left
    simpa [State.checked, eq_comm] using h

/-- A guarded command has its effect with ACCEPTED on an idle link unit, or responds and does no more. -/
theorem State.guarded_cases {ok : Bool} {f : State → State} {s t : State} (h : s.guarded ok f = .next t) :
    (ok = true ∧ s.busy = false ∧ t = (f s).respond .accepted) ∨
    (ok = true ∧ s.busy = true ∧ t = s.respond .pinsBusy) ∨
    (ok = false ∧ t = s.respond .illegalArgument) := by
  cases ok <;> cases hb : s.busy <;> simp [State.guarded, hb] at h <;> simp [h]

/-! A mark touches the marks alone. -/

theorem State.markIf_eq (c : Bool) (f : Fault) (s : State) :
    s.markIf c f = s.withEnv { s.env with marks := if c then addMark f s.env.marks else s.env.marks } := by
  cases c <;> rfl

@[simp] theorem State.markIf_cfg (c : Bool) (f : Fault) (s : State) : (s.markIf c f).cfg = s.cfg := by cases c <;> rfl
@[simp] theorem State.markIf_host (c : Bool) (f : Fault) (s : State) : (s.markIf c f).host = s.host := by cases c <;> rfl
@[simp] theorem State.markIf_tracker (c : Bool) (f : Fault) (s : State) : (s.markIf c f).tracker = s.tracker := by
  cases c <;> rfl
@[simp] theorem State.markIf_kh (c : Bool) (f : Fault) (s : State) : (s.markIf c f).kh = s.kh := by cases c <;> rfl
@[simp] theorem State.markIf_res (c : Bool) (f : Fault) (s : State) : (s.markIf c f).res = s.res := by cases c <;> rfl
@[simp] theorem State.markIf_key (c : Bool) (f : Fault) (s : State) : (s.markIf c f).key = s.key := by cases c <;> rfl
@[simp] theorem State.markIf_layers (c : Bool) (f : Fault) (s : State) : (s.markIf c f).layers = s.layers := by
  cases c <;> rfl
@[simp] theorem State.markIf_link (c : Bool) (f : Fault) (s : State) : (s.markIf c f).link = s.link := by cases c <;> rfl
@[simp] theorem State.markIf_sync (c : Bool) (f : Fault) (s : State) : (s.markIf c f).sync = s.sync := by cases c <;> rfl
@[simp] theorem State.markIf_txBuf (c : Bool) (f : Fault) (s : State) : (s.markIf c f).txBuf = s.txBuf := by
  cases c <;> rfl
@[simp] theorem State.markIf_rxBuf (c : Bool) (f : Fault) (s : State) : (s.markIf c f).rxBuf = s.rxBuf := by
  cases c <;> rfl

/-! The engine's operations: which parts of the state they touch. -/

/-- Everything but the tracker, the KeyHandler, the result and key output registers and the response is the same: what
an engine command may change (R140). -/
structure State.EngineOnly (s t : State) : Prop where
  cfg : t.cfg = s.cfg
  host : t.host = { s.host with cmdResp := t.host.cmdResp }
  layers : t.layers = s.layers
  link : t.link = s.link
  sync : t.sync = s.sync
  txBuf : t.txBuf = s.txBuf
  rxBuf : t.rxBuf = s.rxBuf
  env : t.env = s.env

@[simp] theorem State.trackerStep_tracker (new : Mask) (s : State) :
    (s.trackerStep new).tracker = s.tracker.update new := rfl

@[simp] theorem State.trackerStep_res (new : Mask) (s : State) :
    (s.trackerStep new).res = { s.res with jpRet := pressEdges new s.tracker.state } := rfl

/-- What a KH_UPDATE writes for its match: nothing but the result registers and, for a `Key` chord, the key output. -/
theorem State.applyMatch_cases (m : Option Byte) (mod : Byte) (s : State) :
    (m = none ∧ s.applyMatch m mod = s.withRes { s.res with matched := false, fired := false, matchIdx := 0#8 }) ∨
    (∃ i, m = some i ∧ actionIsKey (entryAction (s.layers.chord s.kh.activeLayer i)) = true ∧
      s.applyMatch m mod =
        (s.withRes { s.res with matched := true, fired := true, matchIdx := i }).withKey
          (s.key.dispatch (actionKeycode (entryAction (s.layers.chord s.kh.activeLayer i))) mod)) ∨
    (∃ i, m = some i ∧ actionIsKey (entryAction (s.layers.chord s.kh.activeLayer i)) = false ∧
      s.applyMatch m mod = s.withRes { s.res with matched := true, fired := false, matchIdx := i }) := by
  cases m with
  | none => exact .inl ⟨rfl, rfl⟩
  | some i =>
    cases h : actionIsKey (entryAction (s.layers.chord s.kh.activeLayer i))
    · exact .inr (.inr ⟨i, rfl, h, by simp [State.applyMatch, h]⟩)
    · exact .inr (.inl ⟨i, rfl, h, by simp [State.applyMatch, h]⟩)

theorem State.applyMatch_frame (m : Option Byte) (mod : Byte) (s : State) :
    s.EngineOnly (s.applyMatch m mod) ∧ (s.applyMatch m mod).tracker = s.tracker ∧
      (s.applyMatch m mod).kh = s.kh ∧ (s.applyMatch m mod).host = s.host := by
  rcases State.applyMatch_cases m mod s with ⟨-, h⟩ | ⟨i, -, -, h⟩ | ⟨i, -, -, h⟩ <;> rw [h] <;>
    exact ⟨⟨rfl, rfl, rfl, rfl, rfl, rfl, rfl, rfl⟩, rfl, rfl, rfl⟩

/-- Everything a KH_UPDATE does to the tracker and the KeyHandler, and what it leaves alone. -/
theorem State.khStep_spec (new : Mask) (s : State) :
    s.EngineOnly (s.khStep new) ∧ (s.khStep new).host = s.host ∧
    (s.khStep new).tracker = s.tracker.update new ∧
    (s.khStep new).kh = { s.kh with
      shouldTrigger := latchNext s.kh.shouldTrigger (pressEdges new s.tracker.state) (releaseEdges new s.tracker.state)
      modifier := s.layers.modifier s.kh.activeLayer new } := by
  obtain ⟨hf, ht, -, hh⟩ := State.applyMatch_frame (s.scan s.tracker.state (releaseEdges new s.tracker.state))
    (s.layers.modifier s.kh.activeLayer new) (s.trackerStep new)
  refine ⟨⟨hf.cfg, hf.host, hf.layers, hf.link, hf.sync, hf.txBuf, hf.rxBuf, hf.env⟩, hh, ht, rfl⟩

/-- The first match is the lowest index below the count that triggers (R154). -/
theorem LayerMem.firstMatch_eq_some {m : LayerMem} {l : Byte} {L J : Mask} {i : Byte}
    (h : m.firstMatch l L J = some i) :
    i.toNat < (m.count l).toNat ∧ triggers (entryTrigger (m.chord l i)) L J = true := by
  unfold LayerMem.firstMatch at h
  have hp := List.find?_some h
  have hm := List.mem_of_find?_eq_some h
  obtain ⟨k, hk, rfl⟩ := List.mem_map.mp hm
  have hk' := List.mem_range.mp hk
  have : (m.count l).toNat < 256 := (m.count l).isLt
  refine ⟨?_, hp⟩
  rw [BitVec.toNat_ofNat]
  omega

/-! The link commands' effects. -/

/-- What an accepted LINK_WRITE touches: the link registers and the marks. -/
theorem State.acceptWrite_eq (len : Byte) (s : State) :
    s.acceptWrite len = (s.markIf (decide (0 < s.env.warmup)) .earlyLinkWrite).withLink
      (if s.clkIn then s.link.startWrite len (frame s.cfg.bitOrder (s.payload len)) else s.link.alreadyWriting) := by
  unfold State.acceptWrite
  split <;> rfl

/-! Every command answers a next state. -/

theorem State.checked_next (ok : Bool) (f : State → State) (s : State) : ∃ t, s.checked ok f = .next t := by
  cases ok
  · exact ⟨_, State.checked_of_not_ok f s rfl⟩
  · exact ⟨_, State.checked_of_ok f s rfl⟩

theorem State.guarded_next (ok : Bool) (f : State → State) (s : State) : ∃ t, s.guarded ok f = .next t := by
  cases ok <;> cases hb : s.busy <;> simp [State.guarded, hb]

/-- No command stops: `exec` answers a next state for every command in every state (R236). -/
theorem exec_next (i : Instr) (s : State) : ∃ t, exec i s = .next t := by
  cases i with
  | nop => exact ⟨_, rfl⟩
  | linkWrite len => exact State.guarded_next _ _ s
  | linkRead cap => exact State.guarded_next _ _ s
  | stUpdate l r => exact ⟨_, rfl⟩
  | khUpdate l r => exact ⟨_, rfl⟩
  | evalTriggers => exact ⟨_, rfl⟩
  | setActiveLayer l => exact State.checked_next _ _ s
  | chordWrite l i => exact State.checked_next _ _ s
  | chordRead l i => exact State.checked_next _ _ s
  | setChordCount l n => exact State.checked_next _ _ s
  | modmapWrite l b m => exact State.checked_next _ _ s
  | modmapRead l b => exact State.checked_next _ _ s

end Sys2Proof.Machine
end

