-- ==== Sys2Proof/Laws/Cycle.lean ====
section
/-! SUPPORT. One clock cycle: once, everything a host access and a step can do. -/

namespace Sys2Proof.Machine

@[simp] theorem onNext_next (s : State) (f : State → State) : onNext (.next s) f = .next (f s) := rfl

/-- A carried-on outcome answers a next state only from one. -/
theorem onNext_cases {o : Host.Outcome State Fault Refusal} {f : State → State} {t : State}
    (h : onNext o f = .next t) : ∃ u, o = .next u ∧ t = f u := by
  cases o with
  | next u => exact ⟨u, rfl, by simpa [eq_comm] using h⟩
  | fault r => simp [onNext] at h
  | refused r => simp [onNext] at h

/-- What a host access can do (R82): nothing; store ARG0 or ARG1; store a TX_BUF word; execute a decoded command; or
answer a word that does not decode. -/
theorem State.hostAccess_cases {op : Option BusOp} {s t : State} (h : s.hostAccess op = .next t) :
    t = s ∨ (∃ v, t = s.withArg0 v) ∨ (∃ v, t = s.withArg1 v) ∨ (∃ k v, t = s.storeTx k v) ∨
    (∃ v i, decode v = .ok i ∧ exec i (s.withCmdLast v) = .next t) ∨
    (∃ v e, decode v = .error e ∧ t = (s.withCmdLast v).respond (errorResponse e)) := by
  cases op with
  | none => left; simpa [State.hostAccess, eq_comm] using h
  | some op =>
    cases op with
    | read a => left; simpa [State.hostAccess, eq_comm] using h
    | write a v =>
      simp only [State.hostAccess, State.hostWrite] at h
      split at h
      case h_1 =>
        unfold State.issueCommand at h
        split at h
        · exact .inr (.inr (.inr (.inr (.inl ⟨v, _, ‹_›, h⟩))))
        · refine .inr (.inr (.inr (.inr (.inr ⟨v, _, ‹_›, ?_⟩))))
          simpa [eq_comm] using h
      case h_3 => exact .inr (.inl ⟨v, by simpa [eq_comm] using h⟩)
      case h_4 => exact .inr (.inr (.inl ⟨v, by simpa [eq_comm] using h⟩))
      case h_13 k _ => exact .inr (.inr (.inr (.inl ⟨k, v, by simpa [eq_comm] using h⟩)))
      all_goals exact .inl (by simpa [eq_comm] using h)

/-- A store to the TX_BUF window touches TX_BUF alone, and nothing while BUSY (R75, R77). -/
theorem State.storeTx_eq (k : Nat) (v : Word) (s : State) :
    s.storeTx k v =
      s.withTxBuf (if s.busy then s.txBuf else storeWord s.cfg.linkBuf s.txBuf k v) := by
  unfold State.storeTx
  split <;> rfl

/-- Storing a word keeps the canonical form. -/
theorem wf_storeWord {m : Memory 8} (n k : Nat) (v : Word) (h : Memory.wf m = true) :
    Memory.wf (storeWord n m k v) = true := by
  have one : ∀ (m : Memory 8) (i : Nat) (b : Byte), Memory.wf m = true → Memory.wf (storeByte n m i b) = true := by
    intro m i b hm
    unfold storeByte
    split
    · exact Memory.wf_write i b hm
    · exact hm
  simp only [storeWord, List.range, List.range.loop, List.foldl]
  exact one _ _ _ (one _ _ _ (one _ _ _ (one _ _ _ h)))

/-- A byte of the buffer after a stored word: the stored bytes below LINK_BUF, every other as before (R75). -/
theorem read_storeWord (n : Nat) (m : Memory 8) (k i : Nat) (v : Word) :
    Memory.read (storeWord n m k v) i =
      if 4 * k ≤ i ∧ i < 4 * k + 4 ∧ i < n then v.extractLsb' (8 * (i - 4 * k)) 8 else Memory.read m i := by
  have one : ∀ (m : Memory 8) (j : Nat) (b : Byte), Memory.read (storeByte n m j b) i =
      if i = j ∧ j < n then b else Memory.read m i := by
    intro m j b
    unfold storeByte
    by_cases hj : j < n <;> simp [hj, Memory.read_write]
  simp only [storeWord, List.range, List.range.loop, List.foldl, one]
  by_cases hn : i < n
  · rcases Nat.lt_or_ge i (4 * k) with h | h
    · have h0 : i ≠ 4 * k + 0 := by omega
      have h1 : i ≠ 4 * k + 1 := by omega
      have h2 : i ≠ 4 * k + 2 := by omega
      have h3 : i ≠ 4 * k + 3 := by omega
      have : ¬ 4 * k ≤ i := by omega
      simp_all
    · obtain ⟨d, rfl⟩ := Nat.exists_eq_add_of_le h
      rcases (by omega : d = 0 ∨ d = 1 ∨ d = 2 ∨ d = 3 ∨ 4 ≤ d) with rfl | rfl | rfl | rfl | hd
      all_goals try simp_all
      have h0 : d ≠ 0 := by omega
      have h1 : d ≠ 1 := by omega
      have h2 : d ≠ 2 := by omega
      have h3 : d ≠ 3 := by omega
      have h4 : ¬ d < 4 := by omega
      simp_all
  · have h0 : ¬ (i = 4 * k ∧ 4 * k < n) := by omega
    have h1 : ¬ (i = 4 * k + 1 ∧ 4 * k + 1 < n) := by omega
    have h2 : ¬ (i = 4 * k + 2 ∧ 4 * k + 2 < n) := by omega
    have h3 : ¬ (i = 4 * k + 3 ∧ 4 * k + 3 < n) := by omega
    simp [hn, h0, h1, h2, h3]

/-! The parts of a cycle. -/

@[simp] theorem State.sampleSink_key (fire err : Bool) (s : State) :
    (s.sampleSink fire err).key = { s.key with sinkErr := if fire then err else s.key.sinkErr } := by cases fire <;> rfl

theorem State.sampleSink_eq (fire err : Bool) (s : State) :
    s.sampleSink fire err = s.withKey { s.key with sinkErr := if fire then err else s.key.sinkErr } := by
  cases fire <;> rfl

/-- What the end of a cycle does: the link state machine if the block was busy, and beside it the sink's response, the
two waits and the synchronisers. -/
theorem State.endCycle_eq (inp : CycleIn) (lv : Levels) (fire busy : Bool) (s : State) :
    s.endCycle inp lv fire busy =
      (if busy then ((s.sampleSink fire inp.sinkErrIn).countDown).linkTick
        else (s.sampleSink fire inp.sinkErrIn).countDown).shiftSync lv := rfl

/-- What a step can do: a reset, or a host access between the beginning and the end of the cycle; with the parameters
in R8's ranges. -/
theorem step_cases {s t : State} (h : step s = .next t) :
    s.cfg.inRange = true ∧
    ((s.nextInput.rst = true ∧ t = (s.resolveWires s.nextInput.peer).resetCycle s.nextInput) ∨
     (s.nextInput.rst = false ∧ ∃ u,
        ((s.resolveWires s.nextInput.peer).beginCycle s.nextInput).hostAccess s.nextInput.bus = .next u ∧
        t = u.endCycle s.nextInput (wireLevels s.link.pads s.nextInput.peer s.env.draws)
          s.key.firePending s.busy)) := by
  unfold step at h
  split at h
  · refine ⟨‹_›, ?_⟩
    unfold State.cycle State.clockCycle at h
    split at h
    next hr => exact .inl ⟨hr, by simpa [eq_comm] using h⟩
    next hr =>
      obtain ⟨u, hu, rfl⟩ := onNext_cases h
      exact .inr ⟨Bool.eq_false_iff.mpr hr, u, hu, rfl⟩
  · cases h

end Sys2Proof.Machine
end

