-- ==== Sys2Proof/Laws/Pair.lean ====
section
/-! SUPPORT. The two compositions of a pair: once, everything a lockstep cycle and a clock edge on two clocks can do. -/

namespace Sys2Proof.Machine

/-! The common reset. -/

@[simp] theorem State.withNextRst_cfg (r : Bool) (s : State) : (s.withNextRst r).cfg = s.cfg := rfl
@[simp] theorem State.withNextRst_host (r : Bool) (s : State) : (s.withNextRst r).host = s.host := rfl
@[simp] theorem State.withNextRst_tracker (r : Bool) (s : State) : (s.withNextRst r).tracker = s.tracker := rfl
@[simp] theorem State.withNextRst_kh (r : Bool) (s : State) : (s.withNextRst r).kh = s.kh := rfl
@[simp] theorem State.withNextRst_res (r : Bool) (s : State) : (s.withNextRst r).res = s.res := rfl
@[simp] theorem State.withNextRst_key (r : Bool) (s : State) : (s.withNextRst r).key = s.key := rfl
@[simp] theorem State.withNextRst_layers (r : Bool) (s : State) : (s.withNextRst r).layers = s.layers := rfl
@[simp] theorem State.withNextRst_link (r : Bool) (s : State) : (s.withNextRst r).link = s.link := rfl
@[simp] theorem State.withNextRst_sync (r : Bool) (s : State) : (s.withNextRst r).sync = s.sync := rfl
@[simp] theorem State.withNextRst_txBuf (r : Bool) (s : State) : (s.withNextRst r).txBuf = s.txBuf := rfl
@[simp] theorem State.withNextRst_rxBuf (r : Bool) (s : State) : (s.withNextRst r).rxBuf = s.rxBuf := rfl
@[simp] theorem State.withNextRst_nextInput (r : Bool) (s : State) :
    (s.withNextRst r).nextInput = { s.nextInput with rst := r } := rfl
@[simp] theorem State.withNextRst_tail (r : Bool) (s : State) :
    (s.withNextRst r).env.inputs.tail = s.env.inputs.tail := rfl

@[simp] theorem Pair.shareRst_a (p : Pair) : p.shareRst.a = p.a.withNextRst p.commonRst := rfl
@[simp] theorem Pair.shareRst_b (p : Pair) : p.shareRst.b = p.b.withNextRst p.commonRst := rfl
@[simp] theorem Pair.shareRst_draws (p : Pair) : p.shareRst.draws = p.draws := rfl
@[simp] theorem Pair.shareRst_marks (p : Pair) : p.shareRst.marks = p.marks := rfl
@[simp] theorem Pair.shareRst_levels (p : Pair) : p.shareRst.levels = p.levels := rfl

/-! The refusals. -/

/-- A guarded pair answers a next pair exactly where the guard holds and what it guards answers it. -/
theorem Pair.unless_eq_next {ok : Bool} {r : Refusal} {o : Host.Outcome Pair Fault Refusal} {q : Pair} :
    Pair.unless ok r o = .next q ↔ ok = true ∧ o = .next q := by
  cases ok <;> simp [Pair.unless]

/-- What both compositions ask of a pair that goes on. -/
theorem Pair.compatible_eq_next {p q : Pair} {o : Host.Outcome Pair Fault Refusal} :
    p.compatible o = .next q ↔
      p.a.cfg.inRange = true ∧ p.b.cfg.inRange = true ∧ p.a.cfg.bitOrder = p.b.cfg.bitOrder ∧ o = .next q := by
  simp [Pair.compatible, Pair.unless_eq_next, and_assoc]

/-! The edges. -/

/-- What the clock edges of `w` can do: a cycle of A, of B, or of both, on the levels of the wires before the edge. -/
theorem Pair.edge_cases {w : Tick} {p q : Pair} (h : p.edge w = .next q) :
    (w = .onlyA ∧ ∃ s, p.a.clockOn p.levels = .next s ∧ q = { p.resolve with a := s }) ∨
    (w = .onlyB ∧ ∃ s, p.b.clockOn p.levels = .next s ∧ q = { p.resolve with b := s }) ∨
    (w = .both ∧ ∃ s t, p.a.clockOn p.levels = .next s ∧ p.b.clockOn p.levels = .next t ∧
      q = { p.resolve with a := s, b := t }) := by
  cases w with
  | onlyA =>
    simp only [Pair.edge, Pair.withA] at h
    split at h
    · exact .inl ⟨rfl, _, ‹_›, by simpa [eq_comm] using h⟩
    · cases h
    · cases h
  | onlyB =>
    simp only [Pair.edge, Pair.withB] at h
    split at h
    · exact .inr (.inl ⟨rfl, _, ‹_›, by simpa [eq_comm] using h⟩)
    · cases h
    · cases h
  | both =>
    simp only [Pair.edge, Pair.withBoth] at h
    split at h
    · exact .inr (.inr ⟨rfl, _, _, ‹_›, ‹_›, by simpa [eq_comm] using h⟩)
    all_goals cases h

/-- What a cycle in lockstep can do (R213): the pair is one that R9 admits, and both endpoints take their cycle with the
common `rst`. -/
theorem Pair.lockstep_cases {p q : Pair} (h : p.lockstep = .next q) :
    (p.a.cfg.inRange = true ∧ p.b.cfg.inRange = true ∧ p.a.cfg.bitOrder = p.b.cfg.bitOrder ∧
      Config.lockstepOk p.a.cfg p.b.cfg = true) ∧
    ∃ s t, (p.a.withNextRst p.commonRst).clockOn p.levels = .next s ∧
      (p.b.withNextRst p.commonRst).clockOn p.levels = .next t ∧ q = { p.resolve with a := s, b := t } := by
  obtain ⟨ha, hb, ho, h⟩ := Pair.compatible_eq_next.mp h
  obtain ⟨hk, h⟩ := Pair.unless_eq_next.mp h
  obtain ⟨hw, -⟩ | ⟨hw, -⟩ | ⟨-, s, t, hs, ht, rfl⟩ := Pair.edge_cases h
  · cases hw
  · cases hw
  · exact ⟨⟨ha, hb, ho, hk⟩, s, t, hs, ht, rfl⟩

/-- What a clock edge on two clocks can do (R276): the pair and its clocks are admitted, and the edge is taken. -/
theorem Pair.tick_cases {k : Clocks} {w : Tick} {p q : Pair} (h : p.tick k w = .next q) :
    (p.a.cfg.inRange = true ∧ p.b.cfg.inRange = true ∧ p.a.cfg.bitOrder = p.b.cfg.bitOrder ∧ k.timingOk p = true) ∧
    p.edge w = .next q := by
  obtain ⟨ha, hb, ho, h⟩ := Pair.compatible_eq_next.mp h
  obtain ⟨hk, h⟩ := Pair.unless_eq_next.mp h
  exact ⟨⟨ha, hb, ho, hk⟩, h⟩

/-- What every edge on two clocks keeps, a run of them keeps. -/
theorem Pair.runTicks_induction {k : Clocks} {P : Pair → Prop} (hk : ∀ w u v, P u → u.tick k w = .next v → P v)
    {ws : List Tick} {p q : Pair} (hp : P p) (h : p.runTicks k ws = .next q) : P q := by
  induction ws generalizing p with
  | nil => cases h; exact hp
  | cons w ws ih =>
    simp only [Pair.runTicks] at h
    split at h
    · exact ih (hk w _ _ hp ‹_›) h
    · cases h
    · cases h

/-- What every edge on two clocks keeps holds of every pair that R276's relation reaches. -/
theorem Pair.Reaches.induction {P : Pair → Prop} (hk : ∀ k w u v, P u → u.tick k w = .next v → P v)
    {p q : Pair} (hp : P p) (h : p.Reaches q) : P q := by
  obtain ⟨k, n, -, h⟩ := h
  exact Pair.runTicks_induction (hk k) hp h

/-- What the clocks that R276 admits keep to: both endpoints idle as the run begins, the conditions on the parameters,
the roles and the issue window. -/
theorem Clocks.admits_eq_true {k : Clocks} {n : Nat} {p : Pair} :
    k.admits n p = true ↔ p.a.link.lstate = .idle ∧ p.b.link.lstate = .idle ∧ k.timingOk p = true ∧
      k.rolesOk n p = true ∧ k.windowOk n p = true := by
  simp [Clocks.admits, and_assoc]

/-- In an admitted run no host issues a link command of the other's role (R266). -/
theorem Clocks.rolesOk_eq_true {k : Clocks} {n : Nat} {p : Pair} :
    k.rolesOk n p = true ↔
      (∀ inp ∈ p.inputsBefore k n k.writer, ∀ i, inp.issued = some i → isReadCommand i = false) ∧
      (∀ inp ∈ p.inputsBefore k n k.writer.other, ∀ i, inp.issued = some i → isWriteCommand i = false) := by
  simp [Clocks.rolesOk, Option.any_eq_false]

/-- The common `rst` is 1 exactly where either queue of inputs asks for a reset (log 15). -/
theorem Pair.commonRst_eq_true {p : Pair} :
    p.commonRst = true ↔ p.a.nextInput.rst = true ∨ p.b.nextInput.rst = true := by
  simp [Pair.commonRst]

end Sys2Proof.Machine
end

