-- ==== Sys2Proof/Laws/PerInstr.lean ====
section
/-! SUPPORT. The per-command family WordFields: the encoder puts the command's opcode of the opcode map (R97) in bits
`[31:24]` and leaves every reserved bit of the row 0 (R91 to R95). -/

namespace Sys2Proof.Laws.WordFields

/-- The opcode of a command in R97's table. -/
def opcodeOf : Instr → Byte
  | .nop => 0x00#8
  | .linkWrite _ => 0x01#8
  | .linkRead _ => 0x02#8
  | .stUpdate _ _ => 0x10#8
  | .khUpdate _ _ => 0x11#8
  | .evalTriggers => 0x12#8
  | .setActiveLayer _ => 0x20#8
  | .chordWrite _ _ => 0x21#8
  | .chordRead _ _ => 0x22#8
  | .setChordCount _ _ => 0x23#8
  | .modmapWrite _ _ _ => 0x24#8
  | .modmapRead _ _ => 0x25#8

/-- The word of a command carries its opcode and has no reserved bit set. -/
def Statement (i : Instr) : Prop :=
  opcodeField (encode i) = opcodeOf i ∧ ∃ mask, reservedMask (opcodeOf i) = some mask ∧ encode i &&& mask = 0#32

theorem nop : Statement .nop := ⟨by decide, _, rfl, by decide⟩

theorem linkWrite (len : Byte) : Statement (.linkWrite len) := by
  refine ⟨BitVec.eq_of_getLsbD_eq fun k hk => ?_, _, rfl, BitVec.eq_of_getLsbD_eq fun k hk => ?_⟩
  · simp only [opcodeField, encode, BitVec.getLsbD_extractLsb', BitVec.getLsbD_append]
    interval_cases k <;> simp [opcodeOf]
  · simp only [encode, BitVec.getLsbD_and, BitVec.getLsbD_append]
    interval_cases k <;> simp

theorem linkRead (cap : Byte) : Statement (.linkRead cap) := by
  refine ⟨BitVec.eq_of_getLsbD_eq fun k hk => ?_, _, rfl, BitVec.eq_of_getLsbD_eq fun k hk => ?_⟩
  · simp only [opcodeField, encode, BitVec.getLsbD_extractLsb', BitVec.getLsbD_append]
    interval_cases k <;> simp [opcodeOf]
  · simp only [encode, BitVec.getLsbD_and, BitVec.getLsbD_append]
    interval_cases k <;> simp

theorem stUpdate (left right : Byte) : Statement (.stUpdate left right) := by
  refine ⟨BitVec.eq_of_getLsbD_eq fun k hk => ?_, _, rfl, BitVec.eq_of_getLsbD_eq fun k hk => ?_⟩
  · simp only [opcodeField, encode, BitVec.getLsbD_extractLsb', BitVec.getLsbD_append]
    interval_cases k <;> simp [opcodeOf]
  · simp only [encode, BitVec.getLsbD_and, BitVec.getLsbD_append]
    interval_cases k <;> simp

theorem khUpdate (left right : Byte) : Statement (.khUpdate left right) := by
  refine ⟨BitVec.eq_of_getLsbD_eq fun k hk => ?_, _, rfl, BitVec.eq_of_getLsbD_eq fun k hk => ?_⟩
  · simp only [opcodeField, encode, BitVec.getLsbD_extractLsb', BitVec.getLsbD_append]
    interval_cases k <;> simp [opcodeOf]
  · simp only [encode, BitVec.getLsbD_and, BitVec.getLsbD_append]
    interval_cases k <;> simp

theorem evalTriggers : Statement .evalTriggers := ⟨by decide, _, rfl, by decide⟩

theorem setActiveLayer (layer : Byte) : Statement (.setActiveLayer layer) := by
  refine ⟨BitVec.eq_of_getLsbD_eq fun k hk => ?_, _, rfl, BitVec.eq_of_getLsbD_eq fun k hk => ?_⟩
  · simp only [opcodeField, encode, BitVec.getLsbD_extractLsb', BitVec.getLsbD_append]
    interval_cases k <;> simp [opcodeOf]
  · simp only [encode, BitVec.getLsbD_and, BitVec.getLsbD_append]
    interval_cases k <;> simp

theorem chordWrite (layer index : Byte) : Statement (.chordWrite layer index) := by
  refine ⟨BitVec.eq_of_getLsbD_eq fun k hk => ?_, _, rfl, BitVec.eq_of_getLsbD_eq fun k hk => ?_⟩
  · simp only [opcodeField, encode, BitVec.getLsbD_extractLsb', BitVec.getLsbD_append]
    interval_cases k <;> simp [opcodeOf]
  · simp only [encode, BitVec.getLsbD_and, BitVec.getLsbD_append]
    interval_cases k <;> simp

theorem chordRead (layer index : Byte) : Statement (.chordRead layer index) := by
  refine ⟨BitVec.eq_of_getLsbD_eq fun k hk => ?_, _, rfl, BitVec.eq_of_getLsbD_eq fun k hk => ?_⟩
  · simp only [opcodeField, encode, BitVec.getLsbD_extractLsb', BitVec.getLsbD_append]
    interval_cases k <;> simp [opcodeOf]
  · simp only [encode, BitVec.getLsbD_and, BitVec.getLsbD_append]
    interval_cases k <;> simp

theorem setChordCount (layer count : Byte) : Statement (.setChordCount layer count) := by
  refine ⟨BitVec.eq_of_getLsbD_eq fun k hk => ?_, _, rfl, BitVec.eq_of_getLsbD_eq fun k hk => ?_⟩
  · simp only [opcodeField, encode, BitVec.getLsbD_extractLsb', BitVec.getLsbD_append]
    interval_cases k <;> simp [opcodeOf]
  · simp only [encode, BitVec.getLsbD_and, BitVec.getLsbD_append]
    interval_cases k <;> simp

theorem modmapWrite (layer : Byte) (bit : BitVec 4) (mod : Byte) : Statement (.modmapWrite layer bit mod) := by
  refine ⟨BitVec.eq_of_getLsbD_eq fun k hk => ?_, _, rfl, BitVec.eq_of_getLsbD_eq fun k hk => ?_⟩
  · simp only [opcodeField, encode, BitVec.getLsbD_extractLsb', BitVec.getLsbD_append]
    interval_cases k <;> simp [opcodeOf]
  · simp only [encode, BitVec.getLsbD_and, BitVec.getLsbD_append]
    interval_cases k <;> simp

theorem modmapRead (layer : Byte) (bit : BitVec 4) : Statement (.modmapRead layer bit) := by
  refine ⟨BitVec.eq_of_getLsbD_eq fun k hk => ?_, _, rfl, BitVec.eq_of_getLsbD_eq fun k hk => ?_⟩
  · simp only [opcodeField, encode, BitVec.getLsbD_extractLsb', BitVec.getLsbD_append]
    interval_cases k <;> simp [opcodeOf]
  · simp only [encode, BitVec.getLsbD_and, BitVec.getLsbD_append]
    interval_cases k <;> simp

end Sys2Proof.Laws.WordFields
end

