-- ==== Sys2Proof/Laws/Registers.lean ====
section
/-! SUPPORT. The register window: which word an address selects (R62, R63), and what the fields of a word read as. -/

namespace Sys2Proof.Machine

/-- A word address is a multiple of 4 (R62). -/
theorem wordAddr_mod_four (a : Addr) : (a &&& 0xFFC#12).toNat % 4 = 0 := by
  have low : (a &&& 0xFFC#12).extractLsb' 0 2 = 0#2 := by
    apply BitVec.eq_of_getLsbD_eq
    intro k hk
    simp only [BitVec.getLsbD_extractLsb', BitVec.getLsbD_and]
    interval_cases k <;> simp
  have h := congrArg BitVec.toNat low
  simpa [BitVec.extractLsb'_toNat] using h

/-- Clearing the low bits twice is clearing them once (R62). -/
theorem wordAddr_idem (a : Addr) : a &&& 0xFFC#12 &&& 0xFFC#12 = a &&& 0xFFC#12 := by
  rw [BitVec.and_assoc, BitVec.and_self]

/-- The register map by word address: every address selects exactly one word (R63). -/
theorem Reg.ofAddr_cases (a : Addr) (o : Nat) (ho : (a &&& 0xFFC#12).toNat = o) :
    (o = 0x000 ∧ Reg.ofAddr a = .cmd) ∨ (o = 0x004 ∧ Reg.ofAddr a = .cmdResp) ∨
    (o = 0x008 ∧ Reg.ofAddr a = .arg0) ∨ (o = 0x00C ∧ Reg.ofAddr a = .arg1) ∨
    (o = 0x010 ∧ Reg.ofAddr a = .linkStatus) ∨ (o = 0x014 ∧ Reg.ofAddr a = .lineState) ∨
    (o = 0x018 ∧ Reg.ofAddr a = .params) ∨ (o = 0x020 ∧ Reg.ofAddr a = .stState) ∨
    (o = 0x024 ∧ Reg.ofAddr a = .stEdges) ∨ (o = 0x028 ∧ Reg.ofAddr a = .khStatus) ∨
    (o = 0x02C ∧ Reg.ofAddr a = .keyOut) ∨ (o = 0x030 ∧ Reg.ofAddr a = .engineResult) ∨
    (0x100 ≤ o ∧ o < 0x200 ∧ Reg.ofAddr a = .txWord (o / 4 - 64)) ∨
    (0x200 ≤ o ∧ o < 0x300 ∧ Reg.ofAddr a = .rxWord (o / 4 - 128)) ∨
    ((o = 0x01C ∨ 0x034 ≤ o ∧ o < 0x100 ∨ 0x300 ≤ o) ∧ Reg.ofAddr a = .reserved) := by
  have h4 := wordAddr_mod_four a
  rw [ho] at h4
  unfold Reg.ofAddr
  simp only [ho]
  by_cases h0 : o / 4 = 0
  · rw [if_pos h0]
    left; exact ⟨by omega, rfl⟩
  rw [if_neg h0]
  by_cases h1 : o / 4 = 1
  · rw [if_pos h1]
    right; left; exact ⟨by omega, rfl⟩
  rw [if_neg h1]
  by_cases h2 : o / 4 = 2
  · rw [if_pos h2]
    iterate 2 right
    left; exact ⟨by omega, rfl⟩
  rw [if_neg h2]
  by_cases h3 : o / 4 = 3
  · rw [if_pos h3]
    iterate 3 right
    left; exact ⟨by omega, rfl⟩
  rw [if_neg h3]
  by_cases h4 : o / 4 = 4
  · rw [if_pos h4]
    iterate 4 right
    left; exact ⟨by omega, rfl⟩
  rw [if_neg h4]
  by_cases h5 : o / 4 = 5
  · rw [if_pos h5]
    iterate 5 right
    left; exact ⟨by omega, rfl⟩
  rw [if_neg h5]
  by_cases h6 : o / 4 = 6
  · rw [if_pos h6]
    iterate 6 right
    left; exact ⟨by omega, rfl⟩
  rw [if_neg h6]
  by_cases h8 : o / 4 = 8
  · rw [if_pos h8]
    iterate 7 right
    left; exact ⟨by omega, rfl⟩
  rw [if_neg h8]
  by_cases h9 : o / 4 = 9
  · rw [if_pos h9]
    iterate 8 right
    left; exact ⟨by omega, rfl⟩
  rw [if_neg h9]
  by_cases h10 : o / 4 = 10
  · rw [if_pos h10]
    iterate 9 right
    left; exact ⟨by omega, rfl⟩
  rw [if_neg h10]
  by_cases h11 : o / 4 = 11
  · rw [if_pos h11]
    iterate 10 right
    left; exact ⟨by omega, rfl⟩
  rw [if_neg h11]
  by_cases h12 : o / 4 = 12
  · rw [if_pos h12]
    iterate 11 right
    left; exact ⟨by omega, rfl⟩
  rw [if_neg h12]
  by_cases ht : 64 ≤ o / 4 ∧ o / 4 < 128
  · rw [if_pos ht]
    iterate 12 right
    left; exact ⟨by omega, by omega, rfl⟩
  rw [if_neg ht]
  by_cases hx : 128 ≤ o / 4 ∧ o / 4 < 192
  · rw [if_pos hx]
    iterate 13 right
    left; exact ⟨by omega, by omega, rfl⟩
  rw [if_neg hx]
  iterate 14 right
  exact ⟨by omega, rfl⟩

/-- A read returns the selected register's word (R61). -/
theorem State.hostRead_of {s : State} {a : Addr} {r : Reg} (h : Reg.ofAddr a = r) : s.hostRead a = s.readReg r := by
  rw [State.hostRead, h]

/-- Byte `j` of a buffer word is byte `4k+j` of the buffer (R75, R76, R83). -/
theorem bufferWord_byte (n : Nat) (m : Memory 8) (k : Nat) {j : Nat} (hj : j < 4) :
    (bufferWord n m k).extractLsb' (8 * j) 8 = bufferByte n m (4 * k + j) := by
  apply BitVec.eq_of_getLsbD_eq
  intro b hb
  simp only [bufferWord, BitVec.getLsbD_extractLsb', BitVec.getLsbD_append]
  interval_cases j <;> interval_cases b <;> simp

end Sys2Proof.Machine
end

