-- ==== Sys2Proof/Machine/HostProgram.lean ====
section
/-! DEFINITION. Host programs: the bus operations of 30_encoding.md R110, the pseudo-instructions of R111, the action
words of R102, and a host that issues them one access a cycle (R61, R85). The host is outside the block; nothing here is
read by `step`. -/

namespace Sys2Proof.Machine

/-- A bus operation of a host program (R110), by register offset. -/
inductive HostOp where
  /-- `WR reg, v`. -/
  | wr (a : Addr) (v : Word)
  /-- `RD reg`. -/
  | rd (a : Addr)
  /-- `POLL reg, mask, val`: reads `reg` until `(value & mask) == val`. -/
  | poll (a : Addr) (mask val : Word)
  deriving DecidableEq, Repr

/-- A command mnemonic standing alone: `WR CMD, word` (R110). -/
def HostOp.command (i : Instr) : HostOp := .wr 0x000#12 (encode i)

/-- The access of one cycle of an operation. -/
def HostOp.access : HostOp → BusOp
  | .wr a v => .write a v
  | .rd a => .read a
  | .poll a _ _ => .read a

/-- The operation is over after a cycle in which the bus returned `word` (R110). -/
def HostOp.over (word : Option Word) : HostOp → Bool
  | .wr _ _ => true
  | .rd _ => true
  | .poll _ mask val => word.any fun v => v &&& mask == val

/-- `KEY(k)` (R102). -/
def actionKey (k : Byte) : Mask := 0b00#2 ++ 0#6 ++ k

/-- `WORD(m)` (R102). -/
def actionWord (m : BitVec 14) : Mask := 0b01#2 ++ m

/-- `LAYER(n)` (R102). -/
def actionLayer (n : Byte) : Mask := 0b10#2 ++ 0#6 ++ n

/-- `RGB(c)` (R102). -/
def actionRgb (c : Byte) : Mask := 0b11#2 ++ 0#6 ++ c

/-- `CHORD layer, index, trigger, action` (R111). -/
def pseudoChord (layer index : Byte) (trigger action : Mask) : List HostOp :=
  [.wr 0x008#12 (action ++ trigger), .command (.chordWrite layer index)]

/-- `WAITLINK` (R111). -/
def pseudoWaitLink : List HostOp := [.poll 0x010#12 0x1#32 0x0#32]

/-- Word `k` of a payload, missing bytes 0 (R111). -/
def payloadWord (d : List Byte) (k : Nat) : Word :=
  d.getD (4 * k + 3) 0#8 ++ d.getD (4 * k + 2) 0#8 ++ d.getD (4 * k + 1) 0#8 ++ d.getD (4 * k) 0#8

/-- `SEND n, b0, b1, ...` (R111), with `n` the number of bytes. -/
def pseudoSend (d : List Byte) : List HostOp :=
  (List.range ((d.length + 3) / 4)).map (fun k => .wr (BitVec.ofNat 12 (0x100 + 4 * k)) (payloadWord d k)) ++
    .command (.linkWrite (BitVec.ofNat 8 d.length)) :: pseudoWaitLink

/-- `RECV cap` (R111). -/
def pseudoRecv (cap : Byte) : List HostOp := .command (.linkRead cap) :: pseudoWaitLink

/-- `TEST trigger, last, released` (R111). -/
def pseudoTest (trigger last released : Mask) : List HostOp :=
  [.wr 0x008#12 (last ++ trigger), .wr 0x00C#12 (0#16 ++ released), .command .evalTriggers]

/-- The state whose next cycle has the host's access `op`; what else the outside world does in it stays as it was. -/
def State.withAccess (op : Option BusOp) (s : State) : State :=
  s.withEnv { s.env with inputs := { s.nextInput with bus := op } :: s.env.inputs.tail }

/-- `n` cycles of a machine whose host runs the operations in order, one access a cycle (R61, R85), and is silent after
the last. The words its reads returned come out beside the outcome, oldest first. -/
def State.runProgram : Nat → List HostOp → State → List Word × Host.Outcome State Fault Refusal
  | 0, _, s => ([], .next s)
  | n + 1, [], s =>
    match step (s.withAccess none) with
    | .next t => State.runProgram n [] t
    | .fault r => ([], .fault r)
    | .refused r => ([], .refused r)
  | n + 1, op :: ops, s =>
    match step (s.withAccess (some op.access)) with
    | .next t =>
      let (words, o) := State.runProgram n (if op.over t.env.busData then ops else op :: ops) t
      (t.env.busData.toList ++ words, o)
    | .fault r => ([], .fault r)
    | .refused r => ([], .refused r)

end Sys2Proof.Machine
end

