-- ==== Sys2Proof/Tests/Slice0.lean ====
section
/-! SUPPORT. Tests of the model: the smoke test of WellFormed, a word for every command written out from 30_encoding.md,
the rules' worked examples, and a witness of the hypotheses of each statement. Expected values come from spec/. -/

namespace Sys2Proof.Tests

open Sys2Proof.Machine

/-! Helpers. -/

/-- The next state, if there is one. -/
def nextOf (o : Host.Outcome State Fault Refusal) : Option State :=
  match o with
  | .next s => some s
  | .fault _ => none
  | .refused _ => none

/-- What the outcome refuses with. -/
def refusalOf (o : Host.Outcome State Fault Refusal) : Option Refusal :=
  match o with
  | .next _ => none
  | .fault _ => none
  | .refused r => some r

/-- What a pair's outcome refuses with. -/
def pairRefusalOf (o : Host.Outcome Pair Fault Refusal) : Option Refusal :=
  match o with
  | .next _ => none
  | .fault _ => none
  | .refused r => some r

/-- The state after the cycle in which the host writes the command word `w` to CMD. -/
def after (s : State) (w : Nat) : Option State := nextOf (step (s.withFetchWord 32 w))

/-- The state after one cycle with the input `inp`. -/
def afterInput (s : State) (inp : CycleIn) : Option State := nextOf (step (s.withNextInput inp))

/-- After reset, with ARG0 and ARG1 as given. -/
def withArgs (a b : Word) : State := (State.reset.withArg0 a).withArg1 b

/-- After reset, with the link unit in the state `l`, its counters at `n` (15 is only in the range of `tmo`), holding that
state's pads. -/
def inLink (l : LState) (n : BitVec 16) : State :=
  let d := if n = 15#16 then 0#16 else n
  let k := { Link.reset with lstate := l, tmo := n, dly := d, wseq := [false, true], rCap := 8#8 }
  State.reset.withLink { k with pads := k.padsOf }

/-- After reset, with both lines' synchronisers holding `clk` and `dat`. -/
def withLines (clk dat : Bool) (s : State) : State := s.withSync ⟨[clk, clk], [dat, dat]⟩

/-- R165's layer 0: chord 0 is the trigger 0x0003 with KEY(0x1C), chord 1 the trigger 0x0001 with KEY(0x04); `action`
stands in place of chord 0's. The latch is armed and both switches are held. -/
def armed (action : Mask) : State :=
  ((State.reset.withLayers (((State.reset.layers.setChord 0#8 0#8 (action ++ 0x0003#16)).setChord 0#8 1#8
    0x00040001#32).setCount 0#8 2#8)).withTracker ⟨0#16, 0x0003#16, 0x0003#16, 0#16⟩).withKh ⟨true, 0#8, 0#8⟩

/-! WellFormed: an ill-formed term for each check of R100 is refused, and the operand at the end of its range is not. -/

theorem test_wf_len : Instr.wf .vectors (.linkWrite 17#8) = false ∧ Instr.wf .vectors (.linkWrite 16#8) = true := by
  decide

theorem test_wf_cap : Instr.wf .vectors (.linkRead 17#8) = false ∧ Instr.wf .vectors (.linkRead 16#8) = true := by
  decide

theorem test_wf_active_layer :
    Instr.wf .vectors (.setActiveLayer 4#8) = false ∧ Instr.wf .vectors (.setActiveLayer 3#8) = true := by decide

theorem test_wf_chord_write_layer : Instr.wf .vectors (.chordWrite 4#8 0#8) = false := by decide

theorem test_wf_chord_write_index :
    Instr.wf .vectors (.chordWrite 0#8 64#8) = false ∧ Instr.wf .vectors (.chordWrite 3#8 63#8) = true := by decide

theorem test_wf_chord_read_layer : Instr.wf .vectors (.chordRead 4#8 0#8) = false := by decide

theorem test_wf_chord_read_index :
    Instr.wf .vectors (.chordRead 0#8 64#8) = false ∧ Instr.wf .vectors (.chordRead 3#8 63#8) = true := by decide

theorem test_wf_count_layer : Instr.wf .vectors (.setChordCount 4#8 0#8) = false := by decide

theorem test_wf_count :
    Instr.wf .vectors (.setChordCount 0#8 65#8) = false ∧ Instr.wf .vectors (.setChordCount 3#8 64#8) = true := by decide

theorem test_wf_modmap_write :
    Instr.wf .vectors (.modmapWrite 4#8 0#4 0#8) = false ∧ Instr.wf .vectors (.modmapWrite 3#8 15#4 255#8) = true := by
  decide

theorem test_wf_modmap_read :
    Instr.wf .vectors (.modmapRead 4#8 0#4) = false ∧ Instr.wf .vectors (.modmapRead 3#8 15#4) = true := by decide

theorem test_wf_always :
    Instr.wf .vectors .nop = true ∧ Instr.wf .vectors .evalTriggers = true ∧
    Instr.wf .vectors (.stUpdate 255#8 255#8) = true ∧ Instr.wf .vectors (.khUpdate 255#8 255#8) = true := by decide

/-! Decode: a word for every command, bit by bit from R91 to R95 and R97, and its encoding. -/

-- F0: OPCODE 0000_0000, zeros.
theorem test_decode_nop : decode 0b00000000000000000000000000000000#32 = .ok .nop := by decide

-- FN: OPCODE 0000_0001, zeros, LEN 1010_0101.
theorem test_decode_link_write : decode 0b00000001000000000000000010100101#32 = .ok (.linkWrite 0xA5#8) := by decide

-- FN: OPCODE 0000_0010, zeros, CAP 0000_1000.
theorem test_decode_link_read : decode 0b00000010000000000000000000001000#32 = .ok (.linkRead 8#8) := by decide

-- FM: OPCODE 0001_0000, zeros, LEFT 1010_0101, RIGHT 0000_1111.
theorem test_decode_st_update : decode 0b00010000000000001010010100001111#32 = .ok (.stUpdate 0xA5#8 0x0F#8) := by decide

-- FM: OPCODE 0001_0001, zeros, LEFT 1000_0000, RIGHT 0000_0011.
theorem test_decode_kh_update : decode 0b00010001000000001000000000000011#32 = .ok (.khUpdate 0x80#8 0x03#8) := by decide

-- F0: OPCODE 0001_0010, zeros.
theorem test_decode_eval_triggers : decode 0b00010010000000000000000000000000#32 = .ok .evalTriggers := by decide

-- FN: OPCODE 0010_0000, zeros, LAYER 0000_0001.
theorem test_decode_set_active_layer : decode 0b00100000000000000000000000000001#32 = .ok (.setActiveLayer 1#8) := by
  decide

-- FLI: OPCODE 0010_0001, LAYER 0000_0011, zeros, INDEX 0011_1111.
theorem test_decode_chord_write : decode 0b00100001000000110000000000111111#32 = .ok (.chordWrite 3#8 63#8) := by decide

-- FLI: OPCODE 0010_0010, LAYER 0000_0010, zeros, INDEX 0000_0001.
theorem test_decode_chord_read : decode 0b00100010000000100000000000000001#32 = .ok (.chordRead 2#8 1#8) := by decide

-- FLI: OPCODE 0010_0011, LAYER 0000_0010, zeros, COUNT 0100_0000.
theorem test_decode_set_chord_count : decode 0b00100011000000100000000001000000#32 = .ok (.setChordCount 2#8 64#8) := by
  decide

-- FLB: OPCODE 0010_0100, LAYER 0000_0001, zeros, BIT 1110, MOD 0000_0010.
theorem test_decode_modmap_write : decode 0b00100100000000010000111000000010#32 = .ok (.modmapWrite 1#8 14#4 2#8) := by
  decide

-- FLB: OPCODE 0010_0101, LAYER 0000_0011, zeros, BIT 1111, zeros.
theorem test_decode_modmap_read : decode 0b00100101000000110000111100000000#32 = .ok (.modmapRead 3#8 15#4) := by decide

-- The two words of R112 that do not decode.
theorem test_decode_refused :
    decode 0x01000100#32 = .error .illegalArgument ∧ decode 0x13000000#32 = .error .illegalCommand := by decide

theorem test_decode_table_word :
    decodeTableWord 32 0x24000E02 = some (.modmapWrite 0#8 14#4 2#8) ∧ decodeTableWord 32 0x03000000 = none := by decide

/-! The rules' worked examples, one step each, from reset unless another state is named. -/

-- R121.
theorem test_nop : (after State.reset 0x00000000).map (·.host.cmdResp) = some .accepted := by decide

-- R180's example (LINK_WRITE 4 of FF 00 7E 01): the frame has 42 bits (R216), stuffed after its first five ones.
theorem test_link_write :
    (after (State.reset.withTxBuf [(0, 0xFF#8), (2, 0x7E#8), (3, 0x01#8)]) 0x01000004).map
      (fun t => (t.link.lstate, t.link.pads, t.link.wseq.length, t.link.wseq.take 7)) =
    some (.wWaitLow, ⟨true, false, false, false⟩, 42, [true, true, true, true, true, false, true]) := by decide

-- R181: a LINK_WRITE while clk_in = 0.
theorem test_link_write_already_writing :
    (after (withLines false true State.reset) 0x01000000).map (fun t => (t.link.lstate, t.link.result, t.link.pads)) =
    some (.idle, .alreadyWriting, Pads.released) := by decide

-- R186's example.
theorem test_link_read :
    (after State.reset 0x02000008).map (fun t => (t.host.cmdResp, t.link.lstate.code, t.link.rCap)) =
    some (.accepted, 8#4, 8#8) := by decide

-- R178: PinsBusy while a transaction is in flight.
theorem test_link_read_busy :
    (after (inLink .rWaitReq 0#16) 0x02000008).map (fun t => (t.host.cmdResp, t.link.tmo)) = some (.pinsBusy, 1#16) := by
  decide

-- R145's example.
theorem test_st_update :
    (after State.reset 0x1000A50F).map (fun t => (t.tracker, t.res.jpRet)) =
    some (⟨0#16, 0xA50F#16, 0xA50F#16, 0#16⟩, 0xA50F#16) := by decide

-- R155's example.
theorem test_kh_update :
    (after State.reset 0x11000003).map (fun t => (t.tracker.state, t.kh.shouldTrigger, t.res.matched)) =
    some (0x0003#16, true, false) := by decide

-- R165, second row: chord 0 fires KEY 0x1C and the latch is disarmed.
theorem test_kh_update_fires :
    (after (armed 0x001C#16) 0x11000002).map (fun t => (t.key.keyCode, t.key.firePending, t.res.fired, t.res.matchIdx,
      t.kh.shouldTrigger)) = some (0x1C#8, true, true, 0#8, false) := by decide

-- R150's example.
theorem test_eval_triggers : (after (withArgs 0x00030003#32 0x00000001#32) 0x12000000).map (·.res.trig) = some true := by
  decide

-- R153: the full trigger was not held.
theorem test_eval_triggers_not_held :
    (after (withArgs 0x00010003#32 0x00000001#32) 0x12000000).map (·.res.trig) = some false := by decide

-- R122's example.
theorem test_set_active_layer :
    (after State.reset 0x20000001).map (fun t => t.hostRead 0x028#12) = some 0x00000100#32 ∧
    (after State.reset 0x20000004).map (fun t => (t.host.cmdResp.code, t.kh.activeLayer)) = some (9#4, 0#8) := by decide

-- R124's example.
theorem test_chord_write :
    (after (withArgs 0x001C0003#32 0#32) 0x21000000).map (fun t => t.layers.chord 0#8 0#8) = some 0x001C0003#32 := by
  decide

-- R126's example; bit 31 of the entry is kept.
theorem test_chord_read :
    (after (State.reset.withLayers (State.reset.layers.setChord 0#8 0#8 0x801C0003#32)) 0x22000000).map (·.host.arg0) =
    some 0x801C0003#32 := by decide

-- R127's example.
theorem test_set_chord_count :
    (after State.reset 0x23000002).map (fun t => (t.layers.count 0#8, t.layers.count 1#8)) = some (2#8, 0#8) := by decide

-- R129's example.
theorem test_modmap_write :
    (after State.reset 0x24000E02).map (fun t => (t.layers.mod 0#8 14#4, t.layers.mod 0#8 13#4)) =
    some (0x02#8, 0x00#8) := by decide

-- R130's example.
theorem test_modmap_read :
    (after (State.reset.withLayers (State.reset.layers.setMod 0#8 14#4 0x02#8)) 0x25000E00).map (·.host.arg0) =
    some 0x00000002#32 := by decide

-- R63: the register window after reset.
theorem test_reset_window :
    State.reset.hostRead 0x010#12 = 0x00000070#32 ∧ State.reset.hostRead 0x014#12 = 0x00000003#32 := by decide

-- R162, R278: the sink's response is taken in the cycle after a dispatch.
theorem test_sink_response :
    (afterInput (State.reset.withKey { KeyOut.reset with firePending := true })
      { CycleIn.quiet with sinkErrIn := true }).map (fun t => (t.key.sinkErr, t.key.firePending)) =
    some (true, false) := by decide

-- R174, R175: FF in both orders: five ones, the stuffed 0, three ones, the marker.
theorem test_frame :
    frame .msbFirst [0xFF#8] = [true, true, true, true, true, false, true, true, true, false, true, true, true, true,
      true, true, false] ∧ frame .lsbFirst [0x01#8] = true :: List.replicate 7 false ++ endMarker := by decide

-- R102's constructors with the tags of R101, and R111's expansions.
theorem test_action_words :
    [actionKey 0x1C#8, actionWord 0x3FFF#14, actionLayer 0x01#8, actionRgb 0xFF#8] =
    [0x001C#16, 0x7FFF#16, 0x8001#16, 0xC0FF#16] := by decide

theorem test_pseudo_send :
    pseudoSend [0xFF#8, 0x00#8, 0x7E#8, 0x01#8, 0x55#8] =
    [.wr 0x100#12 0x017E00FF#32, .wr 0x104#12 0x00000055#32, .wr 0x000#12 0x01000005#32,
      .poll 0x010#12 0x1#32 0x0#32] := by decide

-- R150's example as the TEST pseudo-instruction and a read of ENGINE_RESULT.
theorem test_host_program :
    (State.runProgram 4 (pseudoTest 0x0003#16 0x0003#16 0x0001#16 ++ [.rd 0x030#12]) State.reset).1 =
    [0x00010000#32] := by decide

/-! Witnesses: a concrete state and operands that meet all hypotheses of a statement, for each of its clauses, at the
ends of their ranges. -/

theorem witness_DecodedWordIsItsEncoding : decode 0x21030001#32 = .ok (.chordWrite 3#8 1#8) := by decide

theorem witness_UnassignedOpcodeIsIllegalCommand :
    [0x03000000#32, 0x0FFFFFFF#32, 0x13000000#32, 0x1FFFFFFF#32, 0x26000000#32, 0xFFFFFFFF#32].map decode =
      List.replicate 6 (.error .illegalCommand) ∧
    [0x02000001#32, 0x10000000#32, 0x12000000#32, 0x20000000#32, 0x25000000#32].map decode =
      [.ok (.linkRead 1#8), .ok (.stUpdate 0#8 0#8), .ok .evalTriggers, .ok (.setActiveLayer 0#8),
        .ok (.modmapRead 0#8 0#4)] := by decide

/-- One word of each row with one reserved bit set, beside the row's mask. -/
def reservedWords : List (Word × Word) :=
  [(0x00000001#32, 0x00FFFFFF#32), (0x01000100#32, 0x00FFFF00#32), (0x02800000#32, 0x00FFFF00#32),
    (0x10010000#32, 0x00FF0000#32), (0x11800000#32, 0x00FF0000#32), (0x12000001#32, 0x00FFFFFF#32),
    (0x20000100#32, 0x00FFFF00#32), (0x21008000#32, 0x0000FF00#32), (0x22000100#32, 0x0000FF00#32),
    (0x23008000#32, 0x0000FF00#32), (0x24001000#32, 0x0000F000#32), (0x25000001#32, 0x0000F0FF#32)]

theorem witness_ReservedBitIsIllegalArgument :
    reservedWords.map (fun x => reservedMask (opcodeField x.1)) = reservedWords.map (fun x => some x.2) ∧
    reservedWords.all (fun x => x.1 &&& x.2 != 0#32) = true ∧
    reservedWords.map (fun x => decode x.1) = List.replicate 12 (.error .illegalArgument) :=
  ⟨by decide, by decide, by decide⟩

theorem witness_StepRunsTheDecodedCommand :
    let s := State.reset.withFetchWord 32 0x21000001
    s.cfg.inRange = true ∧ s.env.inputs = CycleIn.command 0x21000001#32 :: [] ∧
    (CycleIn.command 0x21000001#32).rst = false ∧
    (CycleIn.command 0x21000001#32).bus = some (.write 0x000#12 0x21000001#32) ∧
    0x003#12 &&& 0xFFC#12 = 0#12 ∧ decode 0x21000001#32 = .ok (.chordWrite 0#8 1#8) := by decide

theorem witness_StepNeverStopsOnAdmittedParameters :
    Config.vectors.inRange = true ∧ { Config.vectors with syncStages := 5 }.inRange = false ∧
    { Config.vectors with timeout := 65536, nLayers := 255, syncStages := 1 }.inRange = true ∧
    refusalOf (step (State.resetWith { Config.vectors with linkBuf := 256 })) = some .parameters := by decide

theorem witness_ResetGivesTheTable :
    let s := (inLink .wHigh 1#16).withNextInput { CycleIn.command 0x11000003#32 with rst := true }
    s.cfg.inRange = true ∧ s.nextInput.rst = true := by decide

theorem witness_RegisterWindowAfterReset : Config.vectors.inRange = true := by decide

/-- The word addresses of accesses at both ends of each range that a statement about the window names. -/
def wordAddrs (l : List Addr) : List Nat := l.map fun a => (a &&& 0xFFC#12).toNat

theorem witness_ReservedAndReadOnlyWords :
    wordAddrs [0x01C#12, 0x01F#12, 0x034#12, 0x0FF#12, 0x300#12, 0xFFF#12] =
      [0x01C, 0x01C, 0x034, 0x0FC, 0x300, 0xFFC] ∧
    wordAddrs [0x004#12, 0x010#12, 0x0FC#12, 0x200#12, 0x2FF#12] = [0x004, 0x010, 0x0FC, 0x200, 0x2FC] := by decide

theorem witness_TxBufWritesStoreBytesUnlessBusy :
    wordAddrs [0x100#12, 0x10F#12, 0x1FF#12] = [0x100, 0x10C, 0x1FC] ∧
    State.reset.busy = false ∧ (inLink .rReady 0#16).busy = true := by decide

theorem witness_BufferWindowsReadLittleEndian :
    wordAddrs [0x100#12, 0x1FF#12, 0x200#12, 0x2FF#12] = [0x100, 0x1FC, 0x200, 0x2FC] := by decide

theorem witness_ParameterAndTrackerRegisterFields : State.reset.cfg.inRange = true := by decide

theorem witness_NopOnlyResponds :
    ((0x00000001#32).toNat < 2 ^ 24 ∧ 0x00000001#32 ≠ 0#32) ∧
    ((0x00FFFFFF#32).toNat < 2 ^ 24 ∧ 0x00FFFFFF#32 ≠ 0#32) := by simp

theorem witness_SetActiveLayerResult :
    (3#8).toNat < State.reset.cfg.nLayers ∧ State.reset.cfg.nLayers ≤ (4#8).toNat := by decide

theorem witness_ChordWriteStoresTheEntry :
    ((3#8).toNat < State.reset.cfg.nLayers ∧ (63#8).toNat < State.reset.cfg.maxChords) ∧
    ¬ ((4#8).toNat < State.reset.cfg.nLayers ∧ (0#8).toNat < State.reset.cfg.maxChords) ∧
    ¬ ((3#8).toNat < State.reset.cfg.nLayers ∧ (64#8).toNat < State.reset.cfg.maxChords) := by decide

theorem witness_ChordReadReturnsTheEntry :
    ((0#8).toNat < State.reset.cfg.nLayers ∧ (63#8).toNat < State.reset.cfg.maxChords) ∧
    ¬ ((4#8).toNat < State.reset.cfg.nLayers ∧ (63#8).toNat < State.reset.cfg.maxChords) := by decide

theorem witness_SetChordCountKeepsEntries :
    ((3#8).toNat < State.reset.cfg.nLayers ∧ (64#8).toNat ≤ State.reset.cfg.maxChords) ∧
    ¬ ((4#8).toNat < State.reset.cfg.nLayers ∧ (0#8).toNat ≤ State.reset.cfg.maxChords) ∧
    ¬ ((3#8).toNat < State.reset.cfg.nLayers ∧ (65#8).toNat ≤ State.reset.cfg.maxChords) := by decide

theorem witness_ModmapWriteStoresTheModifier :
    (3#8).toNat < State.reset.cfg.nLayers ∧ State.reset.cfg.nLayers ≤ (4#8).toNat := by decide

theorem witness_ModmapReadReturnsTheModifier :
    (0#8).toNat < State.reset.cfg.nLayers ∧ State.reset.cfg.nLayers ≤ (255#8).toNat := by decide

theorem witness_ConfigurationCommandsFrame :
    Instr.isConfiguration (.modmapWrite 3#8 15#4 1#8) = true ∧
    ∃ t, exec (.modmapWrite 3#8 15#4 1#8) State.reset = .next t := ⟨by decide, _, rfl⟩

theorem witness_FirstMatchIsTheLowestIndex :
    (armed 0x001C#16).layers.firstMatch 0#8 0x0003#16 0x0001#16 = some 0#8 ∧
    (armed 0x001C#16).layers.firstMatch 0#8 0x0001#16 0x0001#16 = some 1#8 ∧
    (armed 0x001C#16).layers.firstMatch 0#8 0x0002#16 0x0002#16 = none := by decide

/-- KH_UPDATE 0, 2 on R165's layers: chord 0 is a hit and no index lies below it; with KEY and with LAYER(1). -/
theorem witness_KhUpdateResult_match :
    ∀ action ∈ [0x001C#16, 0x8001#16],
      (armed action).kh.shouldTrigger = true ∧ (0#8).toNat < ((armed action).layers.count 0#8).toNat ∧
      triggers (((armed action).layers.chord 0#8 0#8).extractLsb' 0 16) 0x0003#16 0x0001#16 = true ∧
      (∀ j : Byte, ¬ j.toNat < (0#8).toNat) ∧
      ((armed action).layers.chord 0#8 0#8).extractLsb' 16 16 = action ∧
      ((action.extractLsb' 14 2 = 0#2) ↔ action = 0x001C#16) := by
  intro action h
  simp only [List.mem_cons, List.not_mem_nil, or_false] at h
  rcases h with rfl | rfl <;> exact ⟨by decide, by decide, by decide, fun j => by simp, by decide, by decide⟩

/-- After reset the latch is disarmed, so no index is a hit. -/
theorem witness_KhUpdateResult_none : State.reset.kh.shouldTrigger = false := by decide

theorem witness_EdgesAreDisjointAndRepeatsHaveNone :
    (Instr.stUpdate 1#8 2#8 = .stUpdate 1#8 2#8 ∨ Instr.stUpdate 1#8 2#8 = .khUpdate 1#8 2#8) ∧
    (Instr.khUpdate 1#8 2#8 = .stUpdate 1#8 2#8 ∨ Instr.khUpdate 1#8 2#8 = .khUpdate 1#8 2#8) := by decide

theorem witness_OnlyTheActiveLayerParticipates :
    let s := armed 0x001C#16
    let m := s.layers.setChord 1#8 0#8 0x00050001#32
    m ≠ s.layers ∧ m.count 0#8 = s.layers.count 0#8 ∧ (∀ i, m.chord 0#8 i = s.layers.chord 0#8 i) ∧
    (∀ b, m.mod 0#8 b = s.layers.mod 0#8 b) ∧ ∃ t, exec (.khUpdate 0#8 2#8) s = .next t := by
  refine ⟨by decide, LayerMem.count_setChord _ _ _ _ _, ?_, fun b => LayerMem.mod_setChord _ _ _ _ _ _, _, rfl⟩
  intro i
  rw [LayerMem.chord_setChord, if_neg]
  simp

theorem witness_KeyFirePulsesOncePerDispatch :
    (∃ t, step ((armed 0x001C#16).withFetchWord 32 0x11000002) = .next t ∧ t.key.firePending = true) ∧
    ((armed 0x001C#16).withFetchWord 32 0x11000002).nextInput.rst = false ∧
    (∃ t, step (State.reset.withNextInput { CycleIn.quiet with rst := true }) = .next t) ∧
    (State.reset.withNextInput { CycleIn.quiet with rst := true }).nextInput.rst = true :=
  ⟨⟨_, rfl, by decide⟩, by decide, ⟨_, rfl⟩, by decide⟩

theorem witness_SinkResponseReachesOnlySinkErr :
    let s := (State.reset.withKey { KeyOut.reset with firePending := true }).withNextInput CycleIn.quiet
    let s' := (State.reset.withKey { KeyOut.reset with firePending := true }).withNextInput
      { CycleIn.quiet with sinkErrIn := true }
    s ≠ s' ∧ s.forgetSink = s'.forgetSink ∧ ∃ t, step s = .next t := ⟨by decide, by decide, _, rfl⟩

theorem witness_EngineAndConfigurationIgnoreTheLink :
    Instr.isLink (.khUpdate 0#8 2#8) = false ∧ ∃ t, exec (.khUpdate 0#8 2#8) (armed 0x001C#16) = .next t :=
  ⟨by decide, _, rfl⟩

/-- LEN above LINK_BUF; LEN at LINK_BUF in a busy state; idle with the clock seen low, and seen high. -/
theorem witness_LinkWriteResult :
    State.reset.cfg.linkBuf < (17#8).toNat ∧
    ((16#8).toNat ≤ (inLink .wSetup 0#16).cfg.linkBuf ∧ (inLink .wSetup 0#16).link.lstate ≠ .idle) ∧
    ((withLines false true State.reset).link.lstate = .idle ∧ (withLines false true State.reset).clkIn = false) ∧
    ((0#8).toNat ≤ State.reset.cfg.linkBuf ∧ State.reset.link.lstate = .idle ∧ State.reset.clkIn = true) := by decide

theorem witness_LinkReadResult :
    State.reset.cfg.linkBuf < (17#8).toNat ∧
    ((16#8).toNat ≤ (inLink .rReady 0#16).cfg.linkBuf ∧ (inLink .rReady 0#16).link.lstate ≠ .idle) ∧
    ((16#8).toNat ≤ State.reset.cfg.linkBuf ∧ State.reset.link.lstate = .idle) := by decide

theorem witness_DestuffingRecoversTheFrame :
    (inLink .rWaitHigh 0#16).link.rCount = 0#8 ∧ (inLink .rWaitHigh 0#16).link.rNbits = 0#3 ∧
    (inLink .rWaitHigh 0#16).link.rOnes = 0#3 ∧ (inLink .rWaitHigh 0#16).link.rTail = false := by decide

theorem witness_DestuffStep :
    let s := fun (ones : BitVec 3) (tail : Bool) =>
      State.reset.withLink { Link.reset with rOnes := ones, rTail := tail }
    (s 5#3 true).link.rTail = true ∧ ((s 5#3 false).link.rTail = false ∧ (s 5#3 false).link.rOnes = 5#3) ∧
    ((s 4#3 false).link.rTail = false ∧ (s 4#3 false).link.rOnes ≠ 5#3) := by decide

/-- The five waits, in the last poll (`tmo = TIMEOUT - 1 = 15`) and in the first. -/
theorem witness_BoundedWaitsCountAndTimeOut :
    ((inLink .wWaitLow 15#16).link.lstate = .wWaitLow ∧ (inLink .wWaitLow 15#16).datIn = true) ∧
    ((withLines true false (inLink .wWaitHigh 15#16)).link.lstate = .wWaitHigh ∧
      (withLines true false (inLink .wWaitHigh 15#16)).datIn = false) ∧
    ((inLink .rWaitReq 15#16).link.lstate = .rWaitReq ∧ (inLink .rWaitReq 15#16).clkIn = true) ∧
    ((withLines false true (inLink .rWaitHigh 15#16)).link.lstate = .rWaitHigh ∧
      (withLines false true (inLink .rWaitHigh 15#16)).clkIn = false) ∧
    ((inLink .rWaitLow 15#16).link.lstate = .rWaitLow ∧ (inLink .rWaitLow 15#16).clkIn = true) ∧
    (inLink .rWaitLow 15#16).link.tmo.toNat + 1 = (inLink .rWaitLow 15#16).cfg.timeout ∧
    (inLink .rWaitLow 0#16).link.tmo.toNat + 1 ≠ (inLink .rWaitLow 0#16).cfg.timeout := by decide

/-- Each transition's state, in and before the last cycle of its phase, and for the last bit and one before it. -/
theorem witness_WriterTransitions :
    (withLines true false (inLink .wWaitLow 15#16)).datIn = false ∧ (inLink .wWaitHigh 15#16).datIn = true ∧
    (inLink .wSetup 0#16).link.dly.toNat + 1 ≠ State.reset.cfg.tSetup ∧
    (inLink .wSetup 1#16).link.dly.toNat + 1 = State.reset.cfg.tSetup ∧
    (inLink .wHigh 0#16).link.dly.toNat + 1 ≠ State.reset.cfg.tHigh ∧
    (inLink .wHigh 1#16).link.dly.toNat + 1 = State.reset.cfg.tHigh ∧
    (inLink .wHigh 1#16).link.p + 1 < (inLink .wHigh 1#16).link.wseq.length ∧
    (let s := (inLink .wHigh 1#16).withLink { (inLink .wHigh 1#16).link with p := 1 };
      s.link.lstate = .wHigh ∧ s.link.dly.toNat + 1 = s.cfg.tHigh ∧ s.link.p + 1 = s.link.wseq.length) := by decide

theorem witness_ReaderTransitions :
    (withLines false true (inLink .rWaitReq 15#16)).clkIn = false ∧
    (inLink .rReady 1#16).link.dly.toNat + 1 ≠ State.reset.cfg.tReady ∧
    (inLink .rReady 2#16).link.dly.toNat + 1 = State.reset.cfg.tReady ∧
    ((inLink .rWaitHigh 15#16).link.lstate = .rWaitHigh ∧ (inLink .rWaitHigh 15#16).clkIn = true) ∧
    ((inLink .rWaitHigh 0#16).destuff true).2 = none ∧
    (((inLink .rWaitHigh 0#16).withLink { (inLink .rWaitHigh 0#16).link with rTail := true }).destuff true).2 =
      some .incorrectEndMarker ∧
    (withLines false true (inLink .rWaitLow 15#16)).clkIn = false := by decide

/-- A writer's last cycle ends in IDLE; a LINK_WRITE that meets AlreadyWriting starts and ends there. -/
theorem witness_LinesReleasedOnEveryExit :
    (let s := (inLink .wHigh 1#16).withLink { (inLink .wHigh 1#16).link with p := 1 };
      s.link.lstate ≠ .idle ∧ ∃ t, step s = .next t ∧ t.link.lstate = .idle ∧ t.link.result = .ok) ∧
    (let s := (withLines false true State.reset).withFetchWord 32 0x01000000;
      s.link.lstate = .idle ∧ s.nextInput.rst = false ∧ ∃ t, step s = .next t ∧ t.link.lstate = .idle ∧
        t.link.result = .alreadyWriting) :=
  ⟨⟨by decide, _, rfl, by decide, by decide⟩, by decide, by decide, _, rfl, by decide, by decide⟩

theorem witness_OtherIsNeverRaised : State.reset.link.result ≠ .other ∧ ∃ t, step State.reset = .next t :=
  ⟨by decide, _, rfl⟩

theorem witness_BusyTransactionIsUndisturbed :
    let s := inLink .wSetup 0#16
    let inp := CycleIn.command 0x02000008#32
    s.busy = true ∧ ∃ t u, step (s.withNextInput inp) = .next t ∧
      step (s.withNextInput { inp with bus := none }) = .next u ∧ t.host.cmdResp = .pinsBusy :=
  ⟨by decide, _, _, rfl, rfl, by decide⟩

/-- The link invariant in every link state, at the first and at the last count of its budget. -/
theorem witness_EveryLinkStateIsLeft :
    ∀ x ∈ [(LState.wWaitLow, 15#16), (.wWaitHigh, 0#16), (.wSetup, 1#16), (.wHigh, 0#16), (.rWaitReq, 15#16),
      (.rReady, 2#16), (.rWaitHigh, 0#16), (.rWaitLow, 15#16)],
      (inLink x.1 x.2).cfg.inRange = true ∧ (inLink x.1 x.2).LinkInv ∧ (inLink x.1 x.2).link.lstate ≠ .idle := by
  unfold State.LinkInv
  decide

theorem witness_UnansweredRequestTimesOut :
    (State.reset.cfg.inRange = true ∧ ∀ inp ∈ State.reset.env.inputs, inp = CycleIn.quiet) ∧
    ((inLink .rWaitReq 0#16).link.tmo = 0#16 ∧ (inLink .rWaitReq 0#16).link.pads = Pads.released ∧
      (inLink .rWaitReq 0#16).sync.clk = List.replicate 2 true) ∧
    ((inLink .wWaitLow 0#16).link.tmo = 0#16 ∧ (inLink .wWaitLow 0#16).link.pads = ⟨true, false, false, false⟩ ∧
      (inLink .wWaitLow 0#16).sync.dat = List.replicate 2 true) := by decide

/-- Each clause of the resolution: none drives, one drives, both agree, both disagree. -/
theorem witness_WireResolution :
    (wireLevels Pads.released Pads.released 0) = ⟨true, true⟩ ∧
    (wireLevels ⟨true, false, true, false⟩ Pads.released 0) = ⟨false, false⟩ ∧
    (wireLevels Pads.released ⟨true, false, true, true⟩ 0) = ⟨false, true⟩ ∧
    (wireLevels ⟨true, false, true, true⟩ ⟨true, false, true, true⟩ 0) = ⟨false, true⟩ ∧
    marksAfter ⟨true, false, true, true⟩ ⟨true, true, true, false⟩ [] = [.datContention, .clkContention] := by decide

theorem witness_SynchroniserDelay :
    State.reset.sync.clk.length = State.reset.cfg.syncStages ∧
    State.reset.sync.dat.length = State.reset.cfg.syncStages ∧
    (∀ inp ∈ State.reset.env.inputs.take 2, inp.rst = false) ∧ 0 < State.reset.cfg.syncStages ∧
    ∃ t, Host.Core.run Sys2Proof.core State.reset.cfg.syncStages State.reset = .next t :=
  ⟨by decide, by decide, by decide, by decide, _, rfl⟩

/-- One cycle after reset with the peer driving both lines low. -/
theorem witness_InputsReadHighAfterReset :
    1 < Config.vectors.syncStages ∧
    ∃ t, Host.Core.run Sys2Proof.core 1 { State.resetWith Config.vectors with
      env := { Env.reset Config.vectors with inputs := [{ CycleIn.quiet with peer := ⟨true, false, true, false⟩ }] } } =
      .next t := ⟨by decide, _, rfl⟩

/-- Two endpoints whose hosts issue LINK_WRITE 4 in cycle `w` and LINK_READ 8 in cycle `r`. -/
def linkPair (w r : Nat) : Pair :=
  let s := State.resetWith Config.vectors
  { a := s.withEnv { s.env with
      inputs := List.replicate w CycleIn.quiet ++ [CycleIn.command (encode (.linkWrite 4#8))] }
    b := s.withEnv { s.env with
      inputs := List.replicate r CycleIn.quiet ++ [CycleIn.command (encode (.linkRead 8#8))] }
    draws := 0
    marks := [] }

/-- V-LK2's issue cycles, and both ends of R216's window. -/
theorem witness_LockstepDelivers :
    Config.vectors.lockstepBound = true ∧
    ∀ x ∈ [(5, 3), (13, 0), (0, 12)],
      let c := Config.vectors
      let p := linkPair x.1 x.2
      p.a.cfg = c ∧ p.b.cfg = c ∧ (4#8).toNat ≤ c.linkBuf ∧ (8#8).toNat ≤ c.linkBuf ∧
      p.a.link.lstate = .idle ∧ p.a.link.pads = Pads.released ∧ p.a.sync = Sync.reset c ∧
      p.b.link.lstate = .idle ∧ p.b.link.pads = Pads.released ∧ p.b.sync = Sync.reset c ∧
      p.a.env.inputs = List.replicate x.1 CycleIn.quiet ++ [CycleIn.command (encode (.linkWrite 4#8))] ∧
      p.b.env.inputs = List.replicate x.2 CycleIn.quiet ++ [CycleIn.command (encode (.linkRead 8#8))] ∧
      p.marks = [] ∧ x.1 + c.syncStages + 1 ≤ x.2 + c.timeout ∧ x.2 + c.syncStages + 2 ≤ x.1 + c.timeout := by decide

/-- The vectors' parameters with bit times long enough for R276 on clocks of periods 7 and 9. -/
def slowConfig : Config := { Config.vectors with timeout := 100, tSetup := 6, tHigh := 6, tReady := 9 }

/-- A's clock of period 7 and B's of period 9; A's host writes. -/
def twoClocks : Clocks := ⟨7, 9, 0, 3, .a⟩

/-- Each clause: BIT_ORDER; R9's bound at 7 and 8 (V-LK10) and endpoints not configured alike below it; R276's
conditions broken and met, and broken at the boundary of `TIMEOUT * P_w`. -/
theorem witness_PairRefusesMismatchedEndpoints :
    pairRefusalOf ((Pair.reset .vectors { Config.vectors with bitOrder := .lsbFirst }).tick twoClocks .both) =
      some .bitOrderMismatch ∧
    pairRefusalOf ((Pair.reset .vectors { Config.vectors with bitOrder := .lsbFirst }).lockstep) =
      some .bitOrderMismatch ∧
    pairRefusalOf (Pair.reset { Config.vectors with timeout := 7 } { Config.vectors with timeout := 7 }).lockstep =
      some .lockstepBound ∧
    pairRefusalOf (Pair.reset { Config.vectors with timeout := 8 } { Config.vectors with timeout := 8 }).lockstep = none ∧
    pairRefusalOf (Pair.reset { Config.vectors with timeout := 7 } .vectors).lockstep = none ∧
    pairRefusalOf ((Pair.reset .vectors .vectors).tick twoClocks .onlyA) = some .clockTiming ∧
    pairRefusalOf ((Pair.reset slowConfig slowConfig).tick twoClocks .onlyA) = none ∧
    pairRefusalOf ((Pair.reset slowConfig slowConfig).tick twoClocks .both) = none ∧
    pairRefusalOf ((Pair.reset { slowConfig with timeout := 27 } slowConfig).tick twoClocks .onlyB) = some .clockTiming ∧
    pairRefusalOf ((Pair.reset { slowConfig with timeout := 28 } slowConfig).tick twoClocks .onlyB) = none := by decide

/-- R213: a reset asked for by A's queue alone resets B in the same cycle; an edge on two clocks leaves B as it was. -/
theorem test_lockstep_resets_both :
    let s := State.resetWith slowConfig
    let p : Pair := ⟨s.withEnv { s.env with inputs := [{ CycleIn.quiet with rst := true }] }, s.withArg0 5#32, 0, []⟩
    ((match p.lockstep with | .next q => some q.b.host.arg0 | .fault _ => none | .refused _ => none) = some 0#32) ∧
    ((match p.tick twoClocks .both with | .next q => some q.b.host.arg0 | .fault _ => none | .refused _ => none) =
      some 5#32) := by decide

/-- R276's fifth point: the margin is `(2*2 + 3) * (7 + 9) = 112`, so a read may come before the write by less than
`100*9 - 112 = 788` and after it by less than `100*7 - 112 = 588`. -/
theorem test_issue_window :
    asyncWindowOk slowConfig slowConfig 7 9 787 0 = true ∧ asyncWindowOk slowConfig slowConfig 7 9 788 0 = false ∧
    asyncWindowOk slowConfig slowConfig 7 9 0 587 = true ∧ asyncWindowOk slowConfig slowConfig 7 9 0 588 = false := by decide

/-- The shortest times R276 admits on two clocks of one period with one synchroniser stage: its margin is
`(2*1 + 3) * (1 + 1) = 10`, and its window `14 - 10 = 4`. -/
def quickConfig : Config :=
  { Config.vectors with timeout := 14, tSetup := 3, tHigh := 3, tReady := 3, syncStages := 1 }

/-- A's host reads in cycle `r` and B's host writes in cycle `w`. -/
def readingPair (w r : Nat) : Pair :=
  let s := State.resetWith quickConfig
  { a := s.withEnv { s.env with inputs := List.replicate r CycleIn.quiet ++ [CycleIn.command (encode (.linkRead 8#8))] }
    b := s.withEnv { s.env with inputs := List.replicate w CycleIn.quiet ++ [CycleIn.command (encode (.linkWrite 4#8))] }
    draws := 0
    marks := [] }

/-- R276, R266: the writer is the endpoint whose host writes. With B named the writer a write within 3 cycles of the
read, before it or after it, is admitted and one 4 cycles away is not; a read alone is admitted while a write could
still meet it; and with A named the writer no run that takes a command is. -/
theorem test_writer_is_who_writes :
    let b : Clocks := ⟨1, 1, 0, 0, .b⟩
    let a : Clocks := ⟨1, 1, 0, 0, .a⟩
    b.admits 6 (readingPair 3 0) = true ∧ b.admits 6 (readingPair 0 3) = true ∧
    b.admits 6 (readingPair 4 0) = false ∧ b.admits 6 (readingPair 0 4) = false ∧
    b.admits 3 (readingPair 100 0) = true ∧ b.admits 4 (readingPair 100 0) = false ∧
    a.admits 6 (readingPair 3 0) = false ∧ a.admits 1 (readingPair 100 0) = false ∧
    a.admits 1 (readingPair 0 100) = false := by decide

/-- The state after reset is sound: the hypothesis of the invariants' statements is met. -/
theorem reset_sound : State.reset.Inv := by
  unfold State.Inv State.WithinBounds State.EngineInv State.LinkInv
  simp only [LayerMem.chord, LayerMem.count, LayerMem.mod]
  refine ⟨by decide, by decide, ⟨fun _ _ _ => rfl, fun _ _ => rfl, fun _ _ _ => rfl, fun _ _ => rfl, fun _ _ => rfl⟩,
    ⟨by decide, by decide, fun _ => Nat.zero_le _, by decide⟩, by decide⟩

theorem witness_ResetIsSound : Config.vectors.inRange = true := by decide

theorem witness_StepKeepsTablesCanonical :
    let s := (withArgs 0x001C0003#32 0#32).withFetchWord 32 0x21000000
    s.memoryWf = true ∧ ∃ t, step s = .next t ∧ t.layers ≠ s.layers := ⟨by decide, _, rfl, by decide⟩

theorem witness_StepKeepsSoundness : State.reset.Inv ∧ ∃ t, step State.reset = .next t := ⟨reset_sound, _, rfl⟩

theorem quick_sound : (State.resetWith quickConfig).Inv := by
  unfold State.Inv State.WithinBounds State.EngineInv State.LinkInv
  simp only [LayerMem.chord, LayerMem.count, LayerMem.mod]
  refine ⟨by decide, by decide, ⟨fun _ _ _ => rfl, fun _ _ => rfl, fun _ _ _ => rfl, fun _ _ => rfl, fun _ _ => rfl⟩,
    ⟨by decide, by decide, fun _ => Nat.zero_le _, by decide⟩, by decide⟩

/-- Each way a pair goes on; the run on two clocks starts a read and a write. -/
theorem witness_PairTicksKeepSoundness :
    let k : Clocks := ⟨1, 1, 0, 0, .b⟩
    let p := readingPair 3 0
    p.a.Inv ∧ p.b.Inv ∧ (∃ q, p.tick k .both = .next q) ∧ (∃ q, p.lockstep = .next q) ∧ ∃ q, p.Reaches q :=
  ⟨quick_sound, quick_sound, ⟨_, rfl⟩, ⟨_, rfl⟩, _, ⟨1, 1, 0, 0, .b⟩, 6, by decide, rfl⟩

end Sys2Proof.Tests
end

section
/-! SUPPORT. Destuffing a frame (R175, R187 to R191): what a sampled bit depends on, and that the frame of a payload
destuffs to that payload. -/

namespace Sys2Proof.Machine

/-! A data bit, field by field. -/

@[simp] theorem State.takeBit_cfg (x : Bool) (s : State) : (s.takeBit x).cfg = s.cfg := (State.takeBit_frame x s).1.cfg

@[simp] theorem State.takeBit_rCap (x : Bool) (s : State) : (s.takeBit x).link.rCap = s.link.rCap := by
  rw [(State.takeBit_frame x s).2.2]
  rfl

@[simp] theorem State.takeBit_rTail (x : Bool) (s : State) : (s.takeBit x).link.rTail = s.link.rTail := by
  rw [(State.takeBit_frame x s).2.2]
  rfl

@[simp] theorem State.takeBit_rSr (x : Bool) (s : State) :
    (s.takeBit x).link.rSr = shiftIn s.cfg.bitOrder x s.link.rSr := by
  rw [(State.takeBit_frame x s).2.2]
  rfl

@[simp] theorem State.takeBit_rOnes (x : Bool) (s : State) :
    (s.takeBit x).link.rOnes = if x then s.link.rOnes + 1#3 else 0#3 := by
  rw [(State.takeBit_frame x s).2.2]
  rfl

@[simp] theorem State.takeBit_rNbits (x : Bool) (s : State) :
    (s.takeBit x).link.rNbits = if s.link.rNbits = 7#3 then 0#3 else s.link.rNbits + 1#3 := by
  unfold State.takeBit
  split <;> rfl

/-- The eighth bit of a byte counts it, up to 255 (R190). -/
@[simp] theorem State.takeBit_rCount (x : Bool) (s : State) :
    (s.takeBit x).link.rCount =
      if s.link.rNbits = 7#3 ∧ s.link.rCount.toNat < 255 then s.link.rCount + 1#8 else s.link.rCount := by
  by_cases h : s.link.rNbits = 7#3
  · by_cases hc : s.link.rCount.toNat < 255 <;> simp [State.takeBit_of_eq h, (State.byteDone_spec _ _).2.2.1, h, hc]
  · simp [State.takeBit_of_lt h, h]

/-- The eighth bit of a byte stores it below the capacity (R190). -/
@[simp] theorem State.takeBit_rxBuf (x : Bool) (s : State) :
    (s.takeBit x).rxBuf = if s.link.rNbits = 7#3 ∧ s.link.rCount.toNat < s.link.rCap.toNat
      then Memory.write s.rxBuf s.link.rCount.toNat (shiftIn s.cfg.bitOrder x s.link.rSr) else s.rxBuf := by
  by_cases h : s.link.rNbits = 7#3
  · by_cases hc : s.link.rCount.toNat < s.link.rCap.toNat <;>
      simp [State.takeBit_of_eq h, (State.byteDone_spec _ _).2.2.2, h, hc]
  · simp [State.takeBit_of_lt h, h]

/-! What destuffing reads. -/

/-- Two states agree in all that destuffing reads and writes: the parameters, the reader's registers and RX_BUF. -/
structure State.SameReader (s t : State) : Prop where
  cfg : t.cfg = s.cfg
  rxBuf : t.rxBuf = s.rxBuf
  rCap : t.link.rCap = s.link.rCap
  rCount : t.link.rCount = s.link.rCount
  rNbits : t.link.rNbits = s.link.rNbits
  rSr : t.link.rSr = s.link.rSr
  rOnes : t.link.rOnes = s.link.rOnes
  rTail : t.link.rTail = s.link.rTail

/-- A destuff step depends on nothing but what `SameReader` compares. -/
theorem State.SameReader.destuff {s t : State} (h : s.SameReader t) (x : Bool) :
    (s.destuff x).1.SameReader (t.destuff x).1 ∧ (t.destuff x).2 = (s.destuff x).2 := by
  obtain ⟨hcfg, hrx, hcap, hcount, hnbits, hsr, hones, htail⟩ := h
  unfold State.destuff
  rw [htail, hones, hcap, hcount]
  split
  · split <;> exact ⟨⟨hcfg, hrx, hcap, hcount, hnbits, hsr, hones, htail⟩, rfl⟩
  · split
    · split <;> exact ⟨⟨hcfg, hrx, hcap, hcount, hnbits, hsr, by simp [hones], by simp [htail]⟩, rfl⟩
    · refine ⟨?_, rfl⟩
      constructor <;> simp [hcfg, hrx, hcap, hcount, hnbits, hsr, hones, htail]

/-! Runs of destuff steps. -/

theorem State.destuffAll_cons_none {x : Bool} {s t : State} (h : s.destuff x = (t, none)) (xs : List Bool) :
    s.destuffAll (x :: xs) = t.destuffAll xs := by
  simp [State.destuffAll, h]

theorem State.destuffAll_cons_some {x : Bool} {s t : State} {e : Result} (h : s.destuff x = (t, some e))
    (xs : List Bool) : s.destuffAll (x :: xs) = (t, some e) := by
  simp [State.destuffAll, h]

/-- A bit sampled among the data bits goes into the partial byte (R187, last branch). -/
theorem State.destuff_data {s : State} (ht : s.link.rTail = false) (ho : s.link.rOnes ≠ 5#3) (x : Bool) :
    s.destuff x = (s.takeBit x, none) := by
  simp [State.destuff, ht, ho]

/-- The 0 after five ones is a stuff bit and is dropped (R187). -/
theorem State.destuff_stuffBit {s : State} (ht : s.link.rTail = false) (ho : s.link.rOnes = 5#3) :
    s.destuff false = (s.withLink { s.link with rOnes := 0#3 }, none) := by
  simp [State.destuff, ht, ho]

/-- The sixth 1 in a row is the end marker's (R187, R188). -/
theorem State.destuff_sixth_one {s : State} (ht : s.link.rTail = false) (ho : s.link.rOnes = 5#3) :
    s.destuff true = (s.withLink { s.link with rTail := true }, none) := by
  simp [State.destuff, ht, ho]

/-- The bit after six ones ends the frame when it is 0 (R188, R191). -/
theorem State.destuff_tail {s : State} (ht : s.link.rTail = true) :
    s.destuff false = (s, some (if s.link.rCap.toNat < s.link.rCount.toNat then .overflow else .ok)) := by
  simp [State.destuff, ht]

/-! Payload bits: a stuffed payload destuffs to the payload's own bits. -/

/-- A payload bit destuffed, together with the stuff bit that follows it when it is a fifth one. -/
def State.payloadBit (s : State) (x : Bool) : State :=
  if (s.takeBit x).link.rOnes = 5#3 then (s.takeBit x).withLink { (s.takeBit x).link with rOnes := 0#3 }
  else s.takeBit x

@[simp] theorem State.payloadBit_cfg (s : State) (x : Bool) : (s.payloadBit x).cfg = s.cfg := by
  unfold State.payloadBit
  split <;> simp

@[simp] theorem State.payloadBit_rxBuf (s : State) (x : Bool) : (s.payloadBit x).rxBuf = (s.takeBit x).rxBuf := by
  unfold State.payloadBit
  split <;> rfl

@[simp] theorem State.payloadBit_rTail (s : State) (x : Bool) : (s.payloadBit x).link.rTail = s.link.rTail := by
  unfold State.payloadBit
  split <;> simp

@[simp] theorem State.payloadBit_rCap (s : State) (x : Bool) : (s.payloadBit x).link.rCap = s.link.rCap := by
  unfold State.payloadBit
  split <;> simp

@[simp] theorem State.payloadBit_rCount (s : State) (x : Bool) :
    (s.payloadBit x).link.rCount = (s.takeBit x).link.rCount := by
  unfold State.payloadBit
  split <;> rfl

@[simp] theorem State.payloadBit_rNbits (s : State) (x : Bool) :
    (s.payloadBit x).link.rNbits = (s.takeBit x).link.rNbits := by
  unfold State.payloadBit
  split <;> rfl

@[simp] theorem State.payloadBit_rSr (s : State) (x : Bool) :
    (s.payloadBit x).link.rSr = (s.takeBit x).link.rSr := by
  unfold State.payloadBit
  split <;> rfl

/-- The run of ones between payload bits is the one that the stuffing counts (R175). -/
theorem State.payloadBit_rOnes {s : State} {n : Nat} (ho : s.link.rOnes.toNat = n) (hn : n < 5) (x : Bool) :
    ((s.takeBit x).link.rOnes = 5#3 ↔ x = true ∧ n = 4) ∧
    (s.payloadBit x).link.rOnes.toNat = if x = true ∧ n ≠ 4 then n + 1 else 0 := by
  have hsucc : (s.link.rOnes + 1#3).toNat = n + 1 := by
    rw [BitVec.toNat_add, ho]
    simp
    omega
  have hfive : s.link.rOnes + 1#3 = 5#3 ↔ n = 4 := by
    rw [← BitVec.toNat_inj, hsucc]
    simp
  unfold State.payloadBit
  cases x
  · simp
  · by_cases h4 : n = 4 <;> simp [hfive, hsucc, h4]

/-- A stuffed payload destuffs bit by bit, each stuff bit with the payload bit before it (R175, R187). -/
theorem State.destuffAll_stuffFrom (u rest : List Bool) {n : Nat} {s : State} (ht : s.link.rTail = false)
    (ho : s.link.rOnes.toNat = n) (hn : n < 5) :
    s.destuffAll (stuffFrom n u ++ rest) = (u.foldl State.payloadBit s).destuffAll rest := by
  induction u generalizing n s with
  | nil => rfl
  | cons x u ih =>
    have hne : s.link.rOnes ≠ 5#3 := fun h => by simp [h] at ho; omega
    have hdata := State.destuff_data ht hne x
    obtain ⟨hfive, hones⟩ := State.payloadBit_rOnes ho hn x
    have ht' : (s.payloadBit x).link.rTail = false := by rw [State.payloadBit_rTail, ht]
    by_cases h5 : x = true ∧ n = 4
    · have hstuff : (s.takeBit x).destuff false = (s.payloadBit x, none) := by
        rw [State.destuff_stuffBit (by rw [State.takeBit_rTail, ht]) (hfive.mpr h5), State.payloadBit,
          if_pos (hfive.mpr h5)]
      obtain ⟨rfl, rfl⟩ := h5
      calc s.destuffAll (true :: false :: stuffFrom 0 u ++ rest)
          = (s.takeBit true).destuffAll (false :: stuffFrom 0 u ++ rest) := State.destuffAll_cons_none hdata _
        _ = (s.payloadBit true).destuffAll (stuffFrom 0 u ++ rest) := State.destuffAll_cons_none hstuff _
        _ = _ := ih ht' (by simpa using hones) (by decide)
    · have hbit : s.payloadBit x = s.takeBit x := by rw [State.payloadBit, if_neg (mt hfive.mp h5)]
      have hrun : (if x then n + 1 else 0) < 5 := by cases x <;> simp at h5 ⊢; omega
      calc s.destuffAll (stuffFrom n (x :: u) ++ rest)
          = s.destuffAll (x :: (stuffFrom (if x then n + 1 else 0) u ++ rest)) := by
            simp only [stuffFrom, if_neg (Nat.ne_of_lt hrun), List.cons_append]
        _ = (s.payloadBit x).destuffAll (stuffFrom (if x then n + 1 else 0) u ++ rest) := by
            rw [State.destuffAll_cons_none hdata, hbit]
        _ = _ := ih ht' (by rw [hones]; cases x <;> simp_all) hrun

/-- The run of ones stays below five, and the end marker is not seen, all through a payload (R177). -/
theorem State.payloadBits_run (u : List Bool) {s : State} (ht : s.link.rTail = false)
    (ho : s.link.rOnes.toNat < 5) :
    (u.foldl State.payloadBit s).link.rTail = false ∧ (u.foldl State.payloadBit s).link.rOnes.toNat < 5 := by
  induction u generalizing s with
  | nil => exact ⟨ht, ho⟩
  | cons x u ih =>
    refine ih (by rw [State.payloadBit_rTail, ht]) ?_
    rw [(State.payloadBit_rOnes rfl ho x).2]
    split <;> omega

/-! The payload's bytes. -/

/-- What the bits `u`, which complete no byte, did to the reader: they stand in the partial byte. -/
structure State.TookBits (u : List Bool) (s t : State) : Prop where
  cfg : t.cfg = s.cfg
  rxBuf : t.rxBuf = s.rxBuf
  rCap : t.link.rCap = s.link.rCap
  rCount : t.link.rCount = s.link.rCount
  rNbits : t.link.rNbits.toNat = s.link.rNbits.toNat + u.length
  rSr : t.link.rSr = u.foldl (fun sr x => shiftIn s.cfg.bitOrder x sr) s.link.rSr

theorem State.TookBits.nil (s : State) : s.TookBits [] s := ⟨rfl, rfl, rfl, rfl, rfl, rfl⟩

theorem State.TookBits.takeBit {u : List Bool} {s t : State} (h : s.TookBits u t)
    (hlt : s.link.rNbits.toNat + u.length < 7) (x : Bool) : s.TookBits (u ++ [x]) (t.takeBit x) := by
  have h7 : t.link.rNbits ≠ 7#3 := fun e => by
    have := h.rNbits
    simp [e] at this
    omega
  have hnbits := h.rNbits
  constructor
  · simp [h.cfg]
  · simp [h7, h.rxBuf]
  · simp [h.rCap]
  · simp [h7, h.rCount]
  · rw [State.takeBit_rNbits, if_neg h7, BitVec.toNat_add, List.length_append]
    simp
    omega
  · simp [h.cfg, h.rSr]

theorem State.TookBits.payloadBit {u : List Bool} {s t : State} (h : s.TookBits u t)
    (hlt : s.link.rNbits.toNat + u.length < 7) (x : Bool) : s.TookBits (u ++ [x]) (t.payloadBit x) := by
  obtain ⟨hcfg, hrx, hcap, hcount, hnbits, hsr⟩ := h.takeBit hlt x
  exact ⟨by simpa using hcfg, by rwa [State.payloadBit_rxBuf], by simpa using hcap, by rwa [State.payloadBit_rCount],
    by rwa [State.payloadBit_rNbits], by rwa [State.payloadBit_rSr]⟩

/-- Fewer than eight payload bits from the start of a byte. -/
theorem State.tookBits_payloadBits (u : List Bool) {s : State} (h : s.link.rNbits.toNat + u.length ≤ 7) :
    s.TookBits u (u.foldl State.payloadBit s) := by
  induction u using List.reverseRecOn with
  | nil => exact State.TookBits.nil s
  | append_singleton u x ih =>
    simp only [List.length_append, List.length_singleton] at h
    rw [List.foldl_append]
    exact (ih (by omega)).payloadBit (by omega) x

/-- Eight bits shifted in are the byte whose wire bits they are (R174, R187). -/
theorem shiftIn_byteBits (o : BitOrder) (b sr : Byte) :
    (byteBits o b).foldl (fun sr x => shiftIn o x sr) sr = b := by
  apply BitVec.eq_of_getLsbD_eq
  intro i hi
  cases o <;> interval_cases i <;> simp [byteBits, shiftIn, List.range, List.range.loop]

/-- A byte's eight bits are seven and a last one. -/
theorem byteBits_eq_append (o : BitOrder) (b : Byte) :
    ∃ v x, byteBits o b = v ++ [x] ∧ v.length = 7 := by
  cases o <;> exact ⟨_, _, (List.dropLast_append_getLast (by simp [byteBits])).symm, rfl⟩

/-- What the whole bytes `d`, destuffed, did to a reader that had counted `s.link.rCount` bytes before (R190). -/
structure State.TookBytes (d : List Byte) (s t : State) : Prop where
  cfg : t.cfg = s.cfg
  rCap : t.link.rCap = s.link.rCap
  rNbits : t.link.rNbits = 0#3
  rCount : t.link.rCount.toNat = min (s.link.rCount.toNat + d.length) 255
  rxBuf : ∀ i, Memory.read t.rxBuf i =
    if s.link.rCount.toNat ≤ i ∧ i < s.link.rCount.toNat + d.length ∧ i < s.link.rCap.toNat
    then d.getD (i - s.link.rCount.toNat) 0#8 else Memory.read s.rxBuf i

/-- The bits of one byte give that byte. -/
theorem State.tookBytes_byte (b : Byte) {s : State} (hn : s.link.rNbits = 0#3) :
    s.TookBytes [b] ((byteBits s.cfg.bitOrder b).foldl State.payloadBit s) := by
  obtain ⟨v, x, hv, hlen⟩ := byteBits_eq_append s.cfg.bitOrder b
  have hv7 := State.tookBits_payloadBits v (s := s) (by simp [hn, hlen])
  have hbyte : shiftIn s.cfg.bitOrder x (v.foldl State.payloadBit s).link.rSr = b := by
    rw [hv7.rSr, ← shiftIn_byteBits s.cfg.bitOrder b s.link.rSr, hv, List.foldl_append]
    rfl
  have h7 : (v.foldl State.payloadBit s).link.rNbits = 7#3 :=
    BitVec.eq_of_toNat_eq (by rw [hv7.rNbits, hn, hlen]; rfl)
  have hlt := s.link.rCount.isLt
  rw [hv, List.foldl_append, List.foldl_cons, List.foldl_nil]
  constructor
  · simp [hv7.cfg]
  · simp [hv7.rCap]
  · simp [h7]
  · rw [State.payloadBit_rCount, State.takeBit_rCount, hv7.rCount]
    by_cases hc : s.link.rCount.toNat < 255
    · simp [h7, hc, BitVec.toNat_add]
      omega
    · simp [hc]
      omega
  · intro i
    rw [State.payloadBit_rxBuf, State.takeBit_rxBuf, hv7.rCount, hv7.rCap, hv7.cfg, hv7.rxBuf, hbyte]
    by_cases hi : i = s.link.rCount.toNat
    · by_cases hcap : s.link.rCount.toNat < s.link.rCap.toNat <;> simp [h7, hi, hcap]
    · rw [if_neg (c := s.link.rCount.toNat ≤ i ∧ _) (by simp; omega)]
      split <;> simp [Memory.read_write_ne _ _ hi]

/-- The bits of a payload give its bytes. -/
theorem State.tookBytes_payload (d : List Byte) {s : State} (hn : s.link.rNbits = 0#3) :
    s.TookBytes d ((d.flatMap (byteBits s.cfg.bitOrder)).foldl State.payloadBit s) := by
  induction d generalizing s with
  | nil =>
    have := s.link.rCount.isLt
    exact ⟨rfl, rfl, hn, by simp; omega, fun i => by simp; omega⟩
  | cons b d ih =>
    have hbyte := State.tookBytes_byte b hn
    rw [List.flatMap_cons, List.foldl_append]
    generalize (byteBits s.cfg.bitOrder b).foldl State.payloadBit s = t at hbyte
    have hrest := ih hbyte.rNbits
    rw [hbyte.cfg] at hrest
    generalize (d.flatMap (byteBits s.cfg.bitOrder)).foldl State.payloadBit t = u at hrest
    have hcap := s.link.rCap.isLt
    have hcount := hbyte.rCount
    simp only [List.length_cons, List.length_nil] at hcount
    refine ⟨hrest.cfg.trans hbyte.cfg, hrest.rCap.trans hbyte.rCap, hrest.rNbits, ?_, fun i => ?_⟩
    · rw [hrest.rCount, hcount, List.length_cons]
      omega
    · rw [hrest.rxBuf, hbyte.rxBuf, hbyte.rCap, hcount]
      simp only [List.length_cons, List.length_nil]
      by_cases hi : i = s.link.rCount.toNat
      · rw [if_neg (by omega)]
        simp [hi]
      · rw [if_neg (c := s.link.rCount.toNat ≤ i ∧ _) (by omega)]
        by_cases hin : s.link.rCount.toNat ≤ i ∧ i < s.link.rCount.toNat + (d.length + 1) ∧ i < s.link.rCap.toNat
        · rw [if_pos (by omega), if_pos hin,
            show i - s.link.rCount.toNat = (i - min (s.link.rCount.toNat + (0 + 1)) 255) + 1 by omega]
          rfl
        · rw [if_neg (by omega), if_neg hin]

/-! The end marker and the whole frame. -/

/-- The end marker after whole bytes: its 0 and first five ones are discarded with the partial byte, its sixth one is
taken for a marker, its last 0 ends the read and not before (R188, R189). -/
theorem State.destuffAll_endMarker {s : State} (ht : s.link.rTail = false) (ho : s.link.rOnes.toNat < 5)
    (hn : s.link.rNbits = 0#3) :
    (∃ u, s.destuffAll endMarker.dropLast = (u, none)) ∧
    ∃ t, s.destuffAll endMarker =
        (t, some (if s.link.rCap.toNat < s.link.rCount.toNat then .overflow else .ok)) ∧
      t.link.rCount = s.link.rCount ∧ t.rxBuf = s.rxBuf := by
  have hne : s.link.rOnes ≠ 5#3 := fun h => by simp [h] at ho
  let t := ((((((s.takeBit false).takeBit true).takeBit true).takeBit true).takeBit true).takeBit true)
  have hdata : ∀ rest, s.destuffAll ([false, true, true, true, true, true] ++ rest) = t.destuffAll rest := by
    intro rest
    simp only [List.cons_append, List.nil_append]
    rw [State.destuffAll_cons_none (State.destuff_data ht hne _)]
    iterate 5 rw [State.destuffAll_cons_none (State.destuff_data (by simp [ht]) (by simp) _)]
  have htook : s.TookBits [false, true, true, true, true, true] t :=
    ((((((State.TookBits.nil s).takeBit (by simp [hn]) false).takeBit (by simp [hn]) true).takeBit (by simp [hn])
      true).takeBit (by simp [hn]) true).takeBit (by simp [hn]) true).takeBit (by simp [hn]) true
  have hfive : t.link.rOnes = 5#3 := by simp [t]
  have htail : t.link.rTail = false := by simp [t, ht]
  clear_value t
  have hsix := State.destuff_sixth_one htail hfive
  have hend : (t.withLink { t.link with rTail := true }).destuff false =
      (t.withLink { t.link with rTail := true },
        some (if s.link.rCap.toNat < s.link.rCount.toNat then .overflow else .ok)) := by
    rw [State.destuff_tail rfl, ← htook.rCap, ← htook.rCount]
    rfl
  refine ⟨⟨_, (hdata [true]).trans (State.destuffAll_cons_none hsix [])⟩,
    t.withLink { t.link with rTail := true }, ?_, htook.rCount, htook.rxBuf⟩
  exact (hdata [true, false]).trans ((State.destuffAll_cons_none hsix _).trans (State.destuffAll_cons_some hend []))

/-- The frame of a payload destuffs to the payload: the read ends at the frame's last bit and not before, with OK or
Overflow, the number of bytes up to 255, and the bytes below the capacity in RX_BUF (R177, R187 to R193). -/
theorem State.destuffAll_frame (d : List Byte) {s : State} (hc : s.link.rCount = 0#8) (hn : s.link.rNbits = 0#3)
    (ho : s.link.rOnes = 0#3) (ht : s.link.rTail = false) :
    (∃ u, s.destuffAll (frame s.cfg.bitOrder d).dropLast = (u, none)) ∧
    ∃ t, s.destuffAll (frame s.cfg.bitOrder d) =
        (t, some (if s.link.rCap.toNat < min d.length 255 then .overflow else .ok)) ∧
      t.link.rCount.toNat = min d.length 255 ∧
      (∀ i, i < d.length → i < s.link.rCap.toNat → Memory.read t.rxBuf i = d.getD i 0#8) ∧
      (∀ i, d.length ≤ i ∨ s.link.rCap.toNat ≤ i → Memory.read t.rxBuf i = Memory.read s.rxBuf i) := by
  have hstuff := State.destuffAll_stuffFrom (d.flatMap (byteBits s.cfg.bitOrder)) (s := s) (n := 0)
    (ht := ht) (ho := by simp [ho]) (hn := by decide)
  have htook := State.tookBytes_payload d hn
  obtain ⟨ht', ho'⟩ := State.payloadBits_run (d.flatMap (byteBits s.cfg.bitOrder)) ht (by simp [ho])
  generalize (d.flatMap (byteBits s.cfg.bitOrder)).foldl State.payloadBit s = u at *
  obtain ⟨⟨v, hv⟩, t, hend, hcount, hrx⟩ := State.destuffAll_endMarker ht' ho' htook.rNbits
  have hlen : u.link.rCount.toNat = min d.length 255 := by simpa [hc] using htook.rCount
  refine ⟨⟨v, ?_⟩, t, ?_, by rw [hcount, hlen], fun i hi hcap => ?_, fun i hi => ?_⟩
  · rw [frame, List.dropLast_append_of_ne_nil (by decide), stuff, hstuff, hv]
  · rw [frame, stuff, hstuff, hend, hlen, htook.rCap]
  · rw [hrx, htook.rxBuf, if_pos (by simp [hc]; omega)]
    simp [hc]
  · rw [hrx, htook.rxBuf, if_neg (by simp [hc]; omega)]

/-! The bits still to come of a read. -/

/-- The bits `bits` complete the read of `s`, the last of them and not before: with the code `e`, `n` bytes counted and
an RX_BUF of which `R` holds. -/
inductive State.Awaits (e : Result) (n : Byte) (R : Memory 8 → Prop) : List Bool → State → Prop where
  /-- The last bit. -/
  | last {x : Bool} {s t : State} (h : s.destuff x = (t, some e)) (hn : t.link.rCount = n) (hR : R t.rxBuf) :
      State.Awaits e n R [x] s
  /-- A bit before the last. -/
  | more {x y : Bool} {xs : List Bool} {s t : State} (h : s.destuff x = (t, none))
      (hrest : State.Awaits e n R (y :: xs) t) : State.Awaits e n R (x :: y :: xs) s

section
variable {e : Result} {n : Byte} {R : Memory 8 → Prop}

theorem State.Awaits.of_sameReader {bits : List Bool} {s t : State} (h : State.Awaits e n R bits s)
    (hs : s.SameReader t) : State.Awaits e n R bits t := by
  induction h generalizing t with
  | last h hn hR =>
    obtain ⟨hsame, hcode⟩ := hs.destuff _
    rw [h] at hsame hcode
    exact .last (Prod.ext rfl hcode) (hsame.rCount.trans hn) (hsame.rxBuf ▸ hR)
  | more h hrest ih =>
    obtain ⟨hsame, hcode⟩ := hs.destuff _
    rw [h] at hsame hcode
    exact .more (Prod.ext rfl hcode) (ih hsame)

/-- A run of destuff steps that ends at its last bit is one that is awaited. -/
theorem State.awaits_of_destuffAll {bits : List Bool} {s u t : State} (hne : bits ≠ [])
    (hu : s.destuffAll bits.dropLast = (u, none)) (ht : s.destuffAll bits = (t, some e))
    (hn : t.link.rCount = n) (hR : R t.rxBuf) : State.Awaits e n R bits s := by
  induction bits generalizing s with
  | nil => exact absurd rfl hne
  | cons x xs ih =>
    rcases hx : s.destuff x with ⟨v, _ | c⟩
    · cases xs with
      | nil => simp [State.destuffAll, hx] at ht
      | cons y ys =>
        rw [List.dropLast_cons_cons, State.destuffAll_cons_none hx] at hu
        rw [State.destuffAll_cons_none hx] at ht
        exact .more hx (ih (by simp) hu ht)
    · cases xs with
      | nil =>
        rw [State.destuffAll_cons_some hx] at ht
        cases ht
        exact .last hx hn hR
      | cons y ys =>
        rw [List.dropLast_cons_cons, State.destuffAll_cons_some hx] at hu
        cases hu

/-- The next bit awaited is the last one and completes the read, or the read goes on with the bits after it. -/
theorem State.Awaits.drop_cases {bits : List Bool} {k : Nat} {s : State} (h : State.Awaits e n R (bits.drop k) s) :
    (k + 1 = bits.length ∧ ∃ t, s.destuff (bits.getD k true) = (t, some e) ∧ t.link.rCount = n ∧ R t.rxBuf) ∨
    (k + 1 < bits.length ∧ ∃ t, s.destuff (bits.getD k true) = (t, none) ∧
      State.Awaits e n R (bits.drop (k + 1)) t) := by
  have hbit : bits.getD k true = (bits.drop k).headD true := by
    simp [List.headD_eq_head?_getD, List.getD_eq_getElem?_getD]
  have hlen : bits.length - k = (bits.drop k).length := by simp
  have hrest : bits.drop (k + 1) = (bits.drop k).tail := by simp
  rw [hbit, hrest]
  cases h' : bits.drop k with
  | nil => rw [h'] at h; cases h
  | cons x xs =>
    rw [h'] at h hlen
    cases h with
    | last hd hn hR => exact .inl ⟨by simp at hlen; omega, _, hd, hn, hR⟩
    | more hd hrest => exact .inr ⟨by simp at hlen; omega, _, hd, hrest⟩

end

end Sys2Proof.Machine
end

section
/-! SUPPORT. One clock cycle of an endpoint in lockstep, for the cycles of a transaction: a quiet cycle, the cycle of a
LINK_WRITE and that of a LINK_READ, each with no reset. -/

namespace Sys2Proof.Machine

/-! The command words. -/

theorem lowField_append (a : BitVec 24) (n : Byte) : lowField (a ++ n : BitVec 32) = n := by
  apply BitVec.eq_of_getLsbD_eq
  intro k hk
  rw [lowField, BitVec.getLsbD_extractLsb', Nat.zero_add, BitVec.getLsbD_append]
  simp [hk]

theorem decode_encode_linkWrite (len : Byte) : decode (encode (.linkWrite len)) = .ok (.linkWrite len) := by
  obtain ⟨hop, mask, hmask, hzero⟩ := Laws.WordFields.linkWrite len
  simp only [Laws.WordFields.opcodeOf] at hop hmask
  have hlow : lowField (encode (.linkWrite len)) = len := lowField_append _ len
  simp [decode, hop, hmask, hzero, operation, hlow]

theorem decode_encode_linkRead (cap : Byte) : decode (encode (.linkRead cap)) = .ok (.linkRead cap) := by
  obtain ⟨hop, mask, hmask, hzero⟩ := Laws.WordFields.linkRead cap
  simp only [Laws.WordFields.opcodeOf] at hop hmask
  have hlow : lowField (encode (.linkRead cap)) = cap := lowField_append _ cap
  simp [decode, hop, hmask, hzero, operation, hlow]

/-- A write of a command's word to CMD executes the command (R64, R96). -/
theorem State.hostAccess_command {v : Word} {i : Instr} (h : decode v = .ok i) (s : State) :
    s.hostAccess (CycleIn.command v).bus = exec i (s.withCmdLast v) := by
  change s.issueCommand v = _
  simp [State.issueCommand, h]

theorem exec_linkWrite_of_idle {len : Byte} {s : State} (hlen : len.toNat ≤ s.cfg.linkBuf)
    (hidle : s.link.lstate = .idle) : exec (.linkWrite len) s = .next ((s.acceptWrite len).respond .accepted) := by
  simp [exec, execLinkWrite, State.guarded, lengthOk, hlen, State.busy, hidle]

theorem exec_linkRead_of_idle {cap : Byte} {s : State} (hcap : cap.toNat ≤ s.cfg.linkBuf)
    (hidle : s.link.lstate = .idle) : exec (.linkRead cap) s = .next ((s.acceptRead cap).respond .accepted) := by
  simp [exec, execLinkRead, State.guarded, lengthOk, hcap, State.busy, hidle]

/-! The cycle. -/

/-- The synchronisers one cycle on (R172). -/
def Sync.shift (n : Nat) (lv : Levels) (y : Sync) : Sync := ⟨shiftStages n lv.clk y.clk, shiftStages n lv.dat y.dat⟩

/-- What every cycle without reset and without a store to TX_BUF does beside the link: the synchronisers take the
levels of the wires, one input is taken off the queue. -/
structure State.Clocked (lv : Levels) (s t : State) : Prop where
  cfg : t.cfg = s.cfg
  txBuf : t.txBuf = s.txBuf
  sync : t.sync = s.sync.shift s.cfg.syncStages lv
  inputs : t.env.inputs = s.env.inputs.tail

/-- Two states that the link state machine cannot tell apart. -/
structure State.SameLink (s t : State) : Prop where
  cfg : t.cfg = s.cfg
  link : t.link = s.link
  sync : t.sync = s.sync
  rxBuf : t.rxBuf = s.rxBuf

/-- A cycle in which the outside world is quiet: the link state machine takes its cycle, from a state that differs from
this one in nothing it reads. -/
theorem State.clockOn_quiet {s : State} (h : s.nextInput = CycleIn.quiet) (lv : Levels) :
    ∃ u t, (s.withNextRst false).clockOn lv = .next t ∧ s.Clocked lv t ∧
      s.SameLink u ∧ t.link = u.linkTick.link ∧ t.rxBuf = u.linkTick.rxBuf := by
  let u := (((s.withNextRst false).beginCycle CycleIn.quiet).sampleSink s.key.firePending false).countDown
  have hu : s.SameLink u ∧ u.txBuf = s.txBuf ∧ u.env.inputs = s.env.inputs.tail := by
    simp only [u, State.sampleSink_eq]
    exact ⟨⟨rfl, rfl, rfl, rfl⟩, rfl, rfl⟩
  have hidle : (if s.busy then u.linkTick else u) = u.linkTick := by
    by_cases hb : s.link.lstate = .idle
    · simp [State.linkTick, State.busy, hu.1.link, hb]
    · simp [State.busy, hb]
  have hcycle : (s.withNextRst false).clockOn lv = .next (u.linkTick.shiftSync lv) := by
    rw [← hidle, State.clockOn, State.withNextRst_nextInput, h]
    rfl
  have hf := State.linkOnly_linkTick u
  refine ⟨u, _, hcycle, ⟨hf.cfg.trans hu.1.cfg, hf.txBuf.trans hu.2.1, ?_, ?_⟩, hu.1, rfl, rfl⟩
  · simp only [State.shiftSync, State.withSync_sync, hf.sync, hf.cfg, hu.1.sync, hu.1.cfg]
    rfl
  · change u.linkTick.env.inputs = _
    rw [hf.env, ← hu.2.2]

/-- A cycle in which the host writes a link command's word and `exec` answers `f` of the state. -/
theorem State.clockOn_command {s t : State} {v : Word} {i : Instr} (h : s.nextInput = CycleIn.command v)
    (hidle : s.link.lstate = .idle) (lv : Levels) (hv : decode v = .ok i)
    (ht : exec i (((s.withNextRst false).beginCycle (CycleIn.command v)).withCmdLast v) = .next t) :
    (s.withNextRst false).clockOn lv = .next (((t.sampleSink s.key.firePending false).countDown).shiftSync lv) := by
  rw [← State.hostAccess_command hv] at ht
  have hbusy : (s.withNextRst false).busy = false := by simp [State.busy, hidle]
  have hin : (s.withNextRst false).nextInput = CycleIn.command v := by
    rw [State.withNextRst_nextInput, h]
    rfl
  rw [State.clockOn, hin, State.clockCycle, ht, hbusy]
  rfl

/-- The cycle of a LINK_WRITE on a clock line that reads 1 (R180). -/
theorem State.clockOn_linkWrite {s : State} {len : Byte}
    (h : s.nextInput = CycleIn.command (encode (.linkWrite len))) (hidle : s.link.lstate = .idle)
    (hlen : len.toNat ≤ s.cfg.linkBuf) (hclk : s.clkIn = true) (lv : Levels) :
    ∃ t, (s.withNextRst false).clockOn lv = .next t ∧ s.Clocked lv t ∧
      t.link = s.link.startWrite len (frame s.cfg.bitOrder (s.payload len)) := by
  let v := encode (.linkWrite len)
  let u := ((s.withNextRst false).beginCycle (CycleIn.command v)).withCmdLast v
  have hexec := exec_linkWrite_of_idle (s := u) hlen hidle
  refine ⟨_, State.clockOn_command h hidle lv (decode_encode_linkWrite len) hexec, ?_, ?_⟩
  · rw [State.acceptWrite_eq, State.sampleSink_eq, State.markIf_eq]
    exact ⟨rfl, rfl, rfl, rfl⟩
  · have hu : u.clkIn = true := hclk
    rw [State.acceptWrite_eq, State.sampleSink_eq, State.markIf_eq, if_pos hu]
    rfl

/-- The cycle of a LINK_READ (R186). -/
theorem State.clockOn_linkRead {s : State} {cap : Byte}
    (h : s.nextInput = CycleIn.command (encode (.linkRead cap))) (hidle : s.link.lstate = .idle)
    (hcap : cap.toNat ≤ s.cfg.linkBuf) (lv : Levels) :
    ∃ t, (s.withNextRst false).clockOn lv = .next t ∧ s.Clocked lv t ∧
      t.link = s.link.startRead cap ∧ t.rxBuf = s.rxBuf := by
  let v := encode (.linkRead cap)
  let u := ((s.withNextRst false).beginCycle (CycleIn.command v)).withCmdLast v
  have hexec := exec_linkRead_of_idle (s := u) hcap hidle
  refine ⟨_, State.clockOn_command h hidle lv (decode_encode_linkRead cap) hexec, ?_⟩
  rw [State.acceptRead, State.sampleSink_eq, State.markIf_eq]
  exact ⟨⟨rfl, rfl, rfl, rfl⟩, rfl, rfl⟩

/-! The pair. -/

/-- One cycle of two endpoints that R9 admits in lockstep, with no reset asked for and no wire contended. -/
theorem Pair.lockstep_of_next {p : Pair} {s t : State} (hin : p.a.cfg.inRange = true)
    (hbound : p.a.cfg.lockstepBound = true) (hcfg : p.b.cfg = p.a.cfg)
    (hra : p.a.nextInput.rst = false) (hrb : p.b.nextInput.rst = false)
    (hs : (p.a.withNextRst false).clockOn p.levels = .next s)
    (ht : (p.b.withNextRst false).clockOn p.levels = .next t) :
    p.lockstep = .next { p.resolve with a := s, b := t } := by
  have hrst : p.commonRst = false := by simp [Pair.commonRst, hra, hrb]
  have hok : Config.lockstepOk p.a.cfg p.b.cfg = true := by simp [Config.lockstepOk, hcfg, hbound]
  have hedge : p.shareRst.edge .both = .next { p.resolve with a := s, b := t } := by
    simp only [Pair.edge, Pair.shareRst_a, Pair.shareRst_b, hrst, Pair.shareRst_levels, hs, ht]
    rfl
  exact Pair.compatible_eq_next.mpr ⟨hin, hcfg ▸ hin, by rw [hcfg], Pair.unless_eq_next.mpr ⟨hok, hedge⟩⟩

/-- A run one cycle longer. -/
theorem Pair.runLockstep_succ {n : Nat} {p q : Pair} (h : p.runLockstep n = .next q) :
    p.runLockstep (n + 1) = q.lockstep := by
  induction n generalizing p with
  | zero =>
    cases h
    simp only [Pair.runLockstep]
    cases q.lockstep <;> rfl
  | succ n ih =>
    rw [Pair.runLockstep] at h ⊢
    split at h
    · exact ih h
    · cases h
    · cases h

/-- What the first pair meets at time 0 and every cycle in lockstep carries one cycle on, the run meets at each time. -/
theorem Pair.runLockstep_induction {P : Nat → Pair → Prop} {p : Pair} (h0 : P 0 p)
    (hstep : ∀ t q, P t q → ∃ q', q.lockstep = .next q' ∧ P (t + 1) q') (n : Nat) :
    ∃ q, p.runLockstep n = .next q ∧ P n q := by
  induction n with
  | zero => exact ⟨p, rfl, h0⟩
  | succ n ih =>
    obtain ⟨q, hq, hP⟩ := ih
    obtain ⟨q', hq', hP'⟩ := hstep n q hP
    exact ⟨q', (Pair.runLockstep_succ hq).trans hq', hP'⟩

end Sys2Proof.Machine
end

section
/-! SUPPORT. R216's timeline of one transaction in lockstep: which phase each endpoint is in at each time, and what it
does to the wires. -/

namespace Sys2Proof.Machine

/-- One transaction in lockstep (R213): both endpoints' parameters, the cycles in which the LINK_WRITE and the LINK_READ
are issued, their operands, the payload and what RX_BUF held before. -/
structure Exchange where
  /-- The parameters, the same at both endpoints. -/
  cfg : Config
  /-- The cycle in which the LINK_WRITE is issued. -/
  w : Nat
  /-- The cycle in which the LINK_READ is issued. -/
  r : Nat
  /-- LEN of the LINK_WRITE. -/
  len : Byte
  /-- CAP of the LINK_READ. -/
  cap : Byte
  /-- The bytes sent. -/
  payload : List Byte
  /-- The reader's RX_BUF before the read. -/
  oldRx : Memory 8

/-- What R9, R216 and R100 ask of a transaction that is to succeed, in the form the proofs use. -/
structure Exchange.Admitted (x : Exchange) : Prop where
  inRange : x.cfg.inRange = true
  bound : x.cfg.lockstepBound = true
  len_le : x.len.toNat ≤ x.cfg.linkBuf
  cap_le : x.cap.toNat ≤ x.cfg.linkBuf
  payload_length : x.payload.length = x.len.toNat
  read_not_early : x.w + x.cfg.syncStages + 1 ≤ x.r + x.cfg.timeout
  read_not_late : x.r + x.cfg.syncStages + 2 ≤ x.w + x.cfg.timeout

namespace Exchange

/-- The bits on the wire. -/
def bits (x : Exchange) : List Bool := frame x.cfg.bitOrder x.payload

/-- The last cycle of `R_WAIT_REQ`: the reader's first in which it sees the clock low. -/
def request (x : Exchange) : Nat := x.w + x.cfg.syncStages + 1 + (x.r - (x.w + x.cfg.syncStages))

/-- The first cycle of bit `k` (R216). -/
def bitStart (x : Exchange) (k : Nat) : Nat :=
  x.w + 2 * x.cfg.syncStages + 3 + x.cfg.tReady + (x.r - (x.w + x.cfg.syncStages)) + k * (x.cfg.tSetup + x.cfg.tHigh)

/-- The cycle in which the reader samples bit `k` (R215). -/
def sampleAt (x : Exchange) (k : Nat) : Nat := x.bitStart k + x.cfg.tSetup + x.cfg.syncStages

/-- The writer's pads at time `t`. -/
def writerPads (x : Exchange) (t : Nat) : Pads :=
  if t ≤ x.w then Pads.released
  else if t < x.bitStart 0 then ⟨true, false, false, false⟩
  else if t < x.bitStart x.bits.length then
    ⟨true, decide (x.cfg.tSetup ≤ (t - x.bitStart 0) % (x.cfg.tSetup + x.cfg.tHigh)), true,
      x.bits.getD ((t - x.bitStart 0) / (x.cfg.tSetup + x.cfg.tHigh)) true⟩
  else Pads.released

/-- The reader's pads at time `t`: its ready pulse (R202). -/
def readerPads (x : Exchange) (t : Nat) : Pads :=
  if x.request < t ∧ t ≤ x.request + x.cfg.tReady then ⟨false, false, true, false⟩ else Pads.released

/-- The levels of both wires at time `t`. -/
def levels (x : Exchange) (t : Nat) : Levels where
  clk := (clockWire (x.writerPads t) (x.readerPads t)).getD true
  dat := (dataWire (x.writerPads t) (x.readerPads t)).getD true

/-! The timeline's times. -/

/-- The request ends when the reader first polls a clock that the synchroniser shows low (R201). -/
theorem request_eq_max (x : Exchange) : x.request = max (x.w + x.cfg.syncStages + 1) (x.r + 1) := by
  unfold request
  omega

theorem bitStart_zero (x : Exchange) :
    x.bitStart 0 = x.request + x.cfg.syncStages + 2 + x.cfg.tReady := by
  unfold bitStart request
  omega

theorem bitStart_succ (x : Exchange) (k : Nat) :
    x.bitStart (k + 1) = x.bitStart k + (x.cfg.tSetup + x.cfg.tHigh) := by
  unfold bitStart
  rw [Nat.add_one_mul k]
  omega

/-- The frame's bits follow each other, each `T_SETUP + T_HIGH` cycles long (R215). -/
theorem bitStart_eq (x : Exchange) (k : Nat) :
    x.bitStart k = x.bitStart 0 + (x.cfg.tSetup + x.cfg.tHigh) * k := by
  unfold bitStart
  rw [Nat.mul_comm k, Nat.zero_mul]
  omega

theorem bitStart_mono (x : Exchange) {j k : Nat} (h : j ≤ k) : x.bitStart j ≤ x.bitStart k :=
  Nat.add_le_add_left (Nat.mul_le_mul_right _ h) _

/-- A bit's own cycles all come before the frame's end. -/
theorem bitStart_add_lt_end (x : Exchange) {k o : Nat} (hk : k < x.bits.length)
    (ho : o < x.cfg.tSetup + x.cfg.tHigh) : x.bitStart k + o < x.bitStart x.bits.length := by
  have := x.bitStart_mono (Nat.succ_le_of_lt hk)
  rw [Nat.succ_eq_add_one, bitStart_succ] at this
  omega

theorem bits_length_pos (x : Exchange) : 0 < x.bits.length := by simp [bits, frame, endMarker]

theorem w_lt_request (x : Exchange) : x.w < x.request := by
  rw [request_eq_max]
  omega

theorem r_lt_request (x : Exchange) : x.r < x.request := by
  rw [request_eq_max]
  omega

/-! The writer's pads. -/

theorem writerPads_before (x : Exchange) {t : Nat} (h : t ≤ x.w) : x.writerPads t = Pads.released := if_pos h

theorem writerPads_request (x : Exchange) {t : Nat} (h : x.w < t) (h' : t < x.bitStart 0) :
    x.writerPads t = ⟨true, false, false, false⟩ := by
  simp [writerPads, Nat.not_le.mpr h, h']

theorem writerPads_bit (x : Exchange) {k o : Nat} (hk : k < x.bits.length) (ho : o < x.cfg.tSetup + x.cfg.tHigh) :
    x.writerPads (x.bitStart k + o) = ⟨true, decide (x.cfg.tSetup ≤ o), true, x.bits.getD k true⟩ := by
  have hstart : x.bitStart k + o - x.bitStart 0 = (x.cfg.tSetup + x.cfg.tHigh) * k + o := by
    rw [bitStart_eq]
    omega
  have hw : ¬ x.bitStart k + o ≤ x.w := by
    unfold bitStart
    omega
  have h0 : ¬ x.bitStart k + o < x.bitStart 0 := by
    have := x.bitStart_mono (Nat.zero_le k)
    omega
  rw [writerPads, if_neg hw, if_neg h0, if_pos (x.bitStart_add_lt_end hk ho), hstart, Nat.mul_add_mod,
    Nat.mod_eq_of_lt ho, Nat.mul_add_div (by omega), Nat.div_eq_of_lt ho, Nat.add_zero]

theorem writerPads_done (x : Exchange) {t : Nat} (h : x.bitStart x.bits.length ≤ t) :
    x.writerPads t = Pads.released := by
  have h0 := x.bitStart_mono (Nat.zero_le x.bits.length)
  have hw : x.w < x.bitStart 0 := by
    unfold bitStart
    omega
  rw [writerPads, if_neg (by omega), if_neg (by omega), if_neg (by omega)]

/-! The wires: never contended (R213), and the level of each in each phase. -/

/-- The ready pulse is over before the writer drives the data wire. -/
theorem writerPads_datOe_of_lt (x : Exchange) {t : Nat} (h : t < x.bitStart 0) : (x.writerPads t).datOe = false := by
  rw [writerPads, if_pos h]
  split <;> rfl

theorem readerPads_of_request (x : Exchange) {t : Nat} (h : t ≤ x.request) : x.readerPads t = Pads.released := by
  rw [readerPads, if_neg (by omega)]

theorem readerPads_ready (x : Exchange) {t : Nat} (h : x.request < t) (h' : t ≤ x.request + x.cfg.tReady) :
    x.readerPads t = ⟨false, false, true, false⟩ := by
  rw [readerPads, if_pos ⟨h, h'⟩]

theorem readerPads_after (x : Exchange) {t : Nat} (h : x.request + x.cfg.tReady < t) :
    x.readerPads t = Pads.released := by
  rw [readerPads, if_neg (by omega)]

/-- The reader never drives the clock. -/
theorem readerPads_clkOe (x : Exchange) (t : Nat) : (x.readerPads t).clkOe = false := by
  unfold readerPads
  split <;> rfl

theorem wireLevel_right_released (oe o o' : Bool) :
    wireLevel oe o false o' = some (if oe then o else true) := by
  cases oe <;> rfl

theorem wireLevel_left_released (o oe' o' : Bool) :
    wireLevel false o oe' o' = some (if oe' then o' else true) := by
  cases oe' <;> rfl

theorem clockWire_eq_levels (x : Exchange) (t : Nat) :
    clockWire (x.writerPads t) (x.readerPads t) = some (x.levels t).clk := by
  rw [levels, clockWire, x.readerPads_clkOe, wireLevel_right_released]
  rfl

theorem dataWire_eq_levels (x : Exchange) (t : Nat) :
    dataWire (x.writerPads t) (x.readerPads t) = some (x.levels t).dat := by
  rw [levels, dataWire]
  by_cases h : t < x.bitStart 0
  · rw [x.writerPads_datOe_of_lt h, wireLevel_left_released]
    rfl
  · rw [x.readerPads_after (by rw [bitStart_zero] at h; omega)]
    simp only [Pads.released, wireLevel_right_released]
    rfl

theorem levels_clk_eq (x : Exchange) (t : Nat) :
    (x.levels t).clk = if (x.writerPads t).clkOe then (x.writerPads t).clkO else true := by
  rw [levels, clockWire, x.readerPads_clkOe, wireLevel_right_released]
  rfl

theorem levels_clk_before (x : Exchange) {t : Nat} (h : t ≤ x.w) : (x.levels t).clk = true := by
  rw [levels_clk_eq, x.writerPads_before h]
  rfl

/-- The clock is low from the writer's request to the end of the first bit's setup. -/
theorem levels_clk_request (x : Exchange) {t : Nat} (h : x.w < t) (h' : t < x.bitStart 0) :
    (x.levels t).clk = false := by
  rw [levels_clk_eq, x.writerPads_request h h']
  rfl

/-- The clock in a bit: low for T_SETUP cycles, then high (R198, R199). -/
theorem levels_clk_bit (x : Exchange) {k o : Nat} (hk : k < x.bits.length) (ho : o < x.cfg.tSetup + x.cfg.tHigh) :
    (x.levels (x.bitStart k + o)).clk = decide (x.cfg.tSetup ≤ o) := by
  rw [levels_clk_eq, x.writerPads_bit hk ho]
  rfl

theorem levels_dat_of_lt (x : Exchange) {t : Nat} (h : t < x.bitStart 0) :
    (x.levels t).dat = if (x.readerPads t).datOe then (x.readerPads t).datO else true := by
  rw [levels, dataWire, x.writerPads_datOe_of_lt h, wireLevel_left_released]
  rfl

/-- Before the frame the data wire is low in the ready pulse alone. -/
theorem levels_dat_handshake (x : Exchange) {t : Nat} (h : t < x.bitStart 0) :
    (x.levels t).dat = !decide (x.request < t ∧ t ≤ x.request + x.cfg.tReady) := by
  rw [x.levels_dat_of_lt h, readerPads]
  by_cases hr : x.request < t ∧ t ≤ x.request + x.cfg.tReady
  · rw [if_pos hr, decide_eq_true hr]
    rfl
  · rw [if_neg hr, decide_eq_false hr]
    rfl

/-- The data wire carries the frame's bits (R198, R199). -/
theorem levels_dat_bit (x : Exchange) {k o : Nat} (hk : k < x.bits.length) (ho : o < x.cfg.tSetup + x.cfg.tHigh) :
    (x.levels (x.bitStart k + o)).dat = x.bits.getD k true := by
  have h0 := x.bitStart_mono (Nat.zero_le k)
  have := x.bitStart_zero
  rw [levels, x.writerPads_bit hk ho, x.readerPads_after (by omega)]
  rfl

/-! The phases. -/

/-- The writer's registers of R42 in bit `k`. -/
structure Loaded (x : Exchange) (k : Nat) (l : Link) : Prop where
  wseq : l.wseq = x.bits
  wLen : l.wLen = x.len
  p : l.p = k

/-- The writer's phase at time `t` (R216's table). A wait goes on for `m` more cycles, each a failed poll that it can
afford. -/
inductive Writing (x : Exchange) (t : Nat) (l : Link) : Prop where
  /-- The LINK_WRITE is not issued yet. -/
  | before (ht : t ≤ x.w) (hs : l.lstate = .idle) (hp : l.pads = Pads.released)
  /-- R196: the clock is driven low; the wait ends with the first cycle of the ready pulse that is seen. -/
  | waitLow (m : Nat) (hstart : x.w < t) (ht : t + m = x.request + x.cfg.syncStages + 1)
      (hpolls : l.tmo.toNat + m < x.cfg.timeout)
      (hs : l.lstate = .wWaitLow) (hp : l.pads = ⟨true, false, false, false⟩) (hl : x.Loaded 0 l)
  /-- R197: the wait ends with the first cycle after the ready pulse that is seen. -/
  | waitHigh (m : Nat) (hstart : x.request + x.cfg.syncStages + 1 < t) (ht : t + m + 1 = x.bitStart 0)
      (hpolls : l.tmo.toNat + m < x.cfg.timeout)
      (hs : l.lstate = .wWaitHigh) (hp : l.pads = ⟨true, false, false, false⟩) (hl : x.Loaded 0 l)
  /-- R198, bit `k`. -/
  | setup (k : Nat) (hk : k < x.bits.length) (ht : x.bitStart k + l.dly.toNat = t) (hend : l.dly.toNat < x.cfg.tSetup)
      (hs : l.lstate = .wSetup) (hp : l.pads = ⟨true, false, true, x.bits.getD k true⟩) (hl : x.Loaded k l)
  /-- R199, bit `k`. -/
  | high (k : Nat) (hk : k < x.bits.length) (ht : x.bitStart k + x.cfg.tSetup + l.dly.toNat = t)
      (hend : l.dly.toNat < x.cfg.tHigh)
      (hs : l.lstate = .wHigh) (hp : l.pads = ⟨true, true, true, x.bits.getD k true⟩) (hl : x.Loaded k l)
  /-- R200: completed with OK and LEN. -/
  | done (ht : x.bitStart x.bits.length ≤ t) (hs : l.lstate = .idle) (hp : l.pads = Pads.released)
      (hr : l.result = .ok) (hc : l.count = x.len)

/-- The outcome of the read (R191). -/
def outcome (x : Exchange) : Result := if x.cap.toNat < x.len.toNat then .overflow else .ok

/-- RX_BUF after the read: the payload's bytes below the capacity, every other byte as before (R190, R193). -/
def Stored (x : Exchange) (rx : Memory 8) : Prop :=
  (∀ i, i < x.len.toNat → i < x.cap.toNat → Memory.read rx i = x.payload.getD i 0#8) ∧
  (∀ i, x.len.toNat ≤ i ∨ x.cap.toNat ≤ i → Memory.read rx i = Memory.read x.oldRx i)

/-- The reader has destuffed the first `k` bits of the frame. -/
def Sampled (x : Exchange) (k : Nat) (s : State) : Prop := s.Awaits x.outcome x.len x.Stored (x.bits.drop k)

/-- The reader's phase at time `t`. A wait goes on for `m` more cycles, each a failed poll it can afford. -/
inductive Reading (x : Exchange) (t : Nat) (s : State) : Prop where
  /-- The LINK_READ is not issued yet. -/
  | before (ht : t ≤ x.r) (hs : s.link.lstate = .idle) (hp : s.link.pads = Pads.released) (hrx : s.rxBuf = x.oldRx)
  /-- R201: the wait ends in the cycle `request`. -/
  | waitReq (m : Nat) (hstart : x.r < t) (ht : t + m = x.request) (hpolls : s.link.tmo.toNat + m < x.cfg.timeout)
      (hs : s.link.lstate = .rWaitReq) (hp : s.link.pads = Pads.released) (hb : x.Sampled 0 s)
  /-- R202: the ready pulse. -/
  | ready (ht : x.request + 1 + s.link.dly.toNat = t) (hend : s.link.dly.toNat < x.cfg.tReady)
      (hs : s.link.lstate = .rReady) (hp : s.link.pads = ⟨false, false, true, false⟩) (hb : x.Sampled 0 s)
  /-- R203: bit `k` is sampled at the end of the wait, which begins after the ready pulse or in the bit's setup. -/
  | waitHigh (k m : Nat) (hk : k < x.bits.length) (ht : t + m = x.sampleAt k)
      (hstart : k = 0 ∧ x.request + x.cfg.tReady < t ∨ m < x.cfg.tSetup)
      (hpolls : s.link.tmo.toNat + m < x.cfg.timeout)
      (hs : s.link.lstate = .rWaitHigh) (hp : s.link.pads = Pads.released) (hb : x.Sampled k s)
  /-- R204: bit `k` is sampled, and the clock is seen to fall T_HIGH cycles after that. -/
  | waitLow (k m : Nat) (hk : k + 1 < x.bits.length) (ht : t + m = x.sampleAt k + x.cfg.tHigh)
      (hstart : m < x.cfg.tHigh) (hpolls : s.link.tmo.toNat + m < x.cfg.timeout)
      (hs : s.link.lstate = .rWaitLow) (hp : s.link.pads = Pads.released) (hb : x.Sampled (k + 1) s)
  /-- R205: completed with the outcome of the frame. -/
  | done (ht : x.sampleAt (x.bits.length - 1) < t) (hs : s.link.lstate = .idle) (hp : s.link.pads = Pads.released)
      (hr : s.link.result = x.outcome) (hc : s.link.count = x.len) (hrx : x.Stored s.rxBuf)

/-- In each phase the writer's pads are those of the timeline. -/
theorem Writing.pads {x : Exchange} {t : Nat} {l : Link} (h : x.Writing t l) : l.pads = x.writerPads t := by
  have hz := x.bitStart_zero
  have hw := x.w_lt_request
  cases h with
  | before ht _ hp => rw [hp, x.writerPads_before ht]
  | waitLow m hstart ht _ _ hp => rw [hp, x.writerPads_request hstart (by omega)]
  | waitHigh m hstart ht _ _ hp => rw [hp, x.writerPads_request (by omega) (by omega)]
  | setup k hk ht hend _ hp =>
    rw [hp, ← ht, x.writerPads_bit hk (by omega), decide_eq_false (by omega)]
  | high k hk ht hend _ hp =>
    rw [hp, ← ht, Nat.add_assoc, x.writerPads_bit hk (by omega), decide_eq_true (by omega)]
  | done ht _ hp => rw [hp, x.writerPads_done ht]

/-- In each phase the reader's pads are those of the timeline. -/
theorem Reading.pads {x : Exchange} {t : Nat} {s : State} (h : x.Reading t s) : s.link.pads = x.readerPads t := by
  have hz := x.bitStart_zero
  have hr := x.r_lt_request
  cases h with
  | before ht _ hp => rw [hp, x.readerPads_of_request (by omega)]
  | waitReq m _ ht _ _ hp => rw [hp, x.readerPads_of_request (by omega)]
  | ready ht hend _ hp => rw [hp, x.readerPads_ready (by omega) (by omega)]
  | waitHigh k m hk ht hstart _ _ hp =>
    have := x.bitStart_mono (Nat.zero_le k)
    unfold sampleAt at ht
    rw [hp, x.readerPads_after (by omega)]
  | waitLow k m hk ht hstart _ _ hp =>
    have := x.bitStart_mono (Nat.zero_le k)
    unfold sampleAt at ht
    rw [hp, x.readerPads_after (by omega)]
  | done ht _ hp =>
    have := x.bitStart_mono (Nat.zero_le (x.bits.length - 1))
    unfold sampleAt at ht
    rw [hp, x.readerPads_after (by omega)]

end Exchange

end Sys2Proof.Machine
end

section
/-! SUPPORT. The timeline is kept: a cycle of the writer and of the reader on the timeline's wires, and the command
cycles that begin the transaction. -/

namespace Sys2Proof.Machine

/-! The link state machine, by state. -/

theorem State.linkTick_idle {s : State} (h : s.link.lstate = .idle) : s.linkTick = s := by
  simp [State.linkTick, h]

theorem State.linkTick_wWaitLow {s : State} (h : s.link.lstate = .wWaitLow) :
    s.linkTick = s.boundedWait (!s.datIn) State.leaveWaitLow := by
  simp [State.linkTick, h]

theorem State.linkTick_wWaitHigh {s : State} (h : s.link.lstate = .wWaitHigh) :
    s.linkTick = s.boundedWait s.datIn State.leaveWaitHigh := by
  simp [State.linkTick, h]

theorem State.linkTick_wSetup {s : State} (h : s.link.lstate = .wSetup) :
    s.linkTick = s.fixedPhase s.cfg.tSetup State.leaveSetup := by
  simp [State.linkTick, h]

theorem State.linkTick_wHigh {s : State} (h : s.link.lstate = .wHigh) :
    s.linkTick = s.fixedPhase s.cfg.tHigh State.leaveHigh := by
  simp [State.linkTick, h]

theorem State.linkTick_rWaitReq {s : State} (h : s.link.lstate = .rWaitReq) :
    s.linkTick = s.boundedWait (!s.clkIn) State.leaveWaitReq := by
  simp [State.linkTick, h]

theorem State.linkTick_rReady {s : State} (h : s.link.lstate = .rReady) :
    s.linkTick = s.fixedPhase s.cfg.tReady State.leaveReady := by
  simp [State.linkTick, h]

theorem State.linkTick_rWaitHigh {s : State} (h : s.link.lstate = .rWaitHigh) :
    s.linkTick = s.boundedWait s.clkIn State.sampleBit := by
  simp [State.linkTick, h]

theorem State.linkTick_rWaitLow {s : State} (h : s.link.lstate = .rWaitLow) :
    s.linkTick = s.boundedWait (!s.clkIn) State.leaveClockHigh := by
  simp [State.linkTick, h]

/-- The last bit's `W_HIGH` completes the write, every other one's goes on with the next bit (R199, R200). -/
theorem State.leaveHigh_cases (s : State) :
    (s.link.p + 1 < s.link.wseq.length ∧ s.leaveHigh = s.withLink { s.link with
      p := s.link.p + 1
      pads := { s.link.pads with clkO := false, datO := s.link.bitAt (s.link.p + 1) }
      dly := 0#16, lstate := .wSetup }) ∨
    (s.link.wseq.length ≤ s.link.p + 1 ∧ s.leaveHigh = s.endTransaction .ok s.link.wLen) := by
  by_cases h : s.link.p + 1 < s.link.wseq.length
  · exact .inl ⟨h, by simp [State.leaveHigh, h]⟩
  · exact .inr ⟨by omega, by simp [State.leaveHigh, h]⟩

/-- A 16-bit counter below its limit counts one up without wrapping (R41). -/
theorem toNat_add_one_of_lt {c : BitVec 16} {n : Nat} (h : c.toNat + 1 < n) (hn : n ≤ 65536) :
    (c + 1#16).toNat = c.toNat + 1 := by
  rw [BitVec.toNat_add]
  simp
  omega

/-- A bounded wait whose condition comes true after `m` more failed polls, all below TIMEOUT: it leaves, or counts one
of them. -/
theorem State.boundedWait_on_time {cond : Bool} {m : Nat} {s : State} (leave : State → State)
    (hcond : cond = decide (m = 0)) (hpolls : s.link.tmo.toNat + m < s.cfg.timeout) (hmax : s.cfg.timeout ≤ 65536) :
    (m = 0 ∧ s.boundedWait cond leave = leave s) ∨
    (∃ m' c, m = m' + 1 ∧ c.toNat = s.link.tmo.toNat + 1 ∧
      s.boundedWait cond leave = s.withLink { s.link with tmo := c }) := by
  rcases State.boundedWait_cases cond leave s with ⟨hc, e⟩ | ⟨hc, hlast, -⟩ | ⟨hc, -, e⟩ <;> rw [hcond] at hc
  · exact .inl ⟨of_decide_eq_true hc, e⟩
  · have := of_decide_eq_false hc
    omega
  · have := of_decide_eq_false hc
    exact .inr ⟨m - 1, _, by omega, toNat_add_one_of_lt (by omega) hmax, e⟩

/-- A fixed phase leaves in its last cycle, or counts a cycle before it. -/
theorem State.fixedPhase_on_time {n : Nat} {s : State} (leave : State → State) (hend : s.link.dly.toNat < n)
    (hmax : n ≤ 65536) :
    (s.link.dly.toNat + 1 = n ∧ s.fixedPhase n leave = leave s) ∨
    (∃ c, s.link.dly.toNat + 1 < n ∧ c.toNat = s.link.dly.toNat + 1 ∧
      s.fixedPhase n leave = s.withLink { s.link with dly := c }) := by
  rcases State.fixedPhase_cases n leave s with ⟨hlast, e⟩ | ⟨hlast, e⟩
  · exact .inl ⟨hlast, e⟩
  · exact .inr ⟨_, by omega, toNat_add_one_of_lt (by omega) hmax, e⟩

namespace Exchange

/-! What R8 and R9 give. -/

variable {x : Exchange}

theorem Admitted.ranges (hx : x.Admitted) : x.cfg.timeout ≤ 65536 ∧ (1 ≤ x.cfg.tSetup ∧ x.cfg.tSetup ≤ 65536) ∧
    (1 ≤ x.cfg.tHigh ∧ x.cfg.tHigh ≤ 65536) ∧ (1 ≤ x.cfg.tReady ∧ x.cfg.tReady ≤ 65536) ∧
    1 ≤ x.cfg.syncStages ∧ x.cfg.linkBuf ≤ 255 := by
  have h := hx.inRange
  simp only [Config.inRange, decide_eq_true_eq] at h
  obtain ⟨⟨-, ht⟩, hs, hh, hr, ⟨hy, -⟩, ⟨-, hb⟩, -⟩ := h
  exact ⟨ht, hs, hh, hr, hy, hb⟩

theorem Admitted.bounds (hx : x.Admitted) : x.cfg.tHigh ≤ x.cfg.timeout ∧ x.cfg.tReady ≤ x.cfg.timeout ∧
    2 * x.cfg.syncStages + x.cfg.tSetup + 2 ≤ x.cfg.timeout := by
  have h := hx.bound
  simp only [Config.lockstepBound, decide_eq_true_eq] at h
  omega

/-! The writer. -/

/-- A cycle of the writer, not the one of its command, carries its phase one cycle on (R196 to R200, R216). -/
theorem Writing.linkTick (hx : x.Admitted) {t : Nat} {s : State} (h : x.Writing t s.link) (hcfg : s.cfg = x.cfg)
    (hdat : s.datIn = (x.levels (t - x.cfg.syncStages)).dat) (ht : t ≠ x.w) : x.Writing (t + 1) s.linkTick.link := by
  obtain ⟨htmo, ⟨hset, hset'⟩, ⟨hhi, hhi'⟩, ⟨hrdy, hrdy'⟩, hstages, -⟩ := hx.ranges
  obtain ⟨-, hready, -⟩ := hx.bounds
  have hz := x.bitStart_zero
  have hw := x.w_lt_request
  rw [← hcfg] at htmo
  cases h with
  | before htime hs hp =>
    rw [State.linkTick_idle hs]
    exact .before (by omega) hs hp
  | waitLow m hstart htime hpolls hs hp hl =>
    have hcond : (!s.datIn) = decide (m = 0) := by
      rw [hdat, x.levels_dat_handshake (by omega), Bool.not_not, decide_eq_decide]
      omega
    rw [State.linkTick_wWaitLow hs]
    rcases State.boundedWait_on_time State.leaveWaitLow hcond (by rwa [hcfg]) htmo with
      ⟨rfl, e⟩ | ⟨m, c, rfl, hc, e⟩ <;> rw [e]
    · exact .waitHigh (x.cfg.tReady - 1) (by omega) (by omega) (by simp [State.leaveWaitLow]; omega) rfl hp
        ⟨hl.wseq, hl.wLen, hl.p⟩
    · exact .waitLow m (by omega) (by omega) (by simp only [State.withLink_link]; omega) hs hp ⟨hl.wseq, hl.wLen, hl.p⟩
  | waitHigh m hstart htime hpolls hs hp hl =>
    have hcond : s.datIn = decide (m = 0) := by
      rw [hdat, x.levels_dat_handshake (by omega), ← decide_not, decide_eq_decide]
      omega
    rw [State.linkTick_wWaitHigh hs]
    rcases State.boundedWait_on_time State.leaveWaitHigh hcond (by rwa [hcfg]) htmo with
      ⟨rfl, e⟩ | ⟨m, c, rfl, hc, e⟩ <;> rw [e]
    · exact .setup 0 x.bits_length_pos htime.symm hset rfl
        (by simp [State.leaveWaitHigh, hp, Link.bitAt, hl.wseq]) ⟨hl.wseq, hl.wLen, hl.p⟩
    · exact .waitHigh m (by omega) (by omega) (by simp only [State.withLink_link]; omega) hs hp ⟨hl.wseq, hl.wLen, hl.p⟩
  | setup k hk htime hend hs hp hl =>
    rw [State.linkTick_wSetup hs, hcfg]
    rcases State.fixedPhase_on_time State.leaveSetup hend hset' with ⟨hlast, e⟩ | ⟨c, hlt, hc, e⟩ <;> rw [e]
    · exact .high k hk (by simp [State.leaveSetup]; omega) hhi rfl (by simp [State.leaveSetup, hp])
        ⟨hl.wseq, hl.wLen, hl.p⟩
    · exact .setup k hk (by simp only [State.withLink_link]; omega) (by simp only [State.withLink_link]; omega) hs hp
        ⟨hl.wseq, hl.wLen, hl.p⟩
  | high k hk htime hend hs hp hl =>
    have hnext := x.bitStart_succ k
    rw [State.linkTick_wHigh hs, hcfg]
    rcases State.fixedPhase_on_time State.leaveHigh hend hhi' with ⟨hlast, e⟩ | ⟨c, hlt, hc, e⟩ <;> rw [e]
    · rcases State.leaveHigh_cases s with ⟨hmore, e⟩ | ⟨hmore, e⟩ <;> rw [e] <;> rw [hl.p, hl.wseq] at hmore
      · exact .setup (k + 1) hmore (by simp; omega) hset rfl (by simp [hp, Link.bitAt, hl.wseq, hl.p])
          ⟨hl.wseq, hl.wLen, by simp [hl.p]⟩
      · have hlen : x.bits.length = k + 1 := by omega
        exact .done (by rw [hlen]; omega) rfl rfl rfl hl.wLen
    · exact .high k hk (by simp only [State.withLink_link]; omega) (by simp only [State.withLink_link]; omega) hs hp
        ⟨hl.wseq, hl.wLen, hl.p⟩
  | done htime hs hp hr hc =>
    rw [State.linkTick_idle hs]
    exact .done (by omega) hs hp hr hc

/-- Until its command the writer is idle with both lines released. -/
theorem Writing.idle_of_le {t : Nat} {l : Link} (h : x.Writing t l) (ht : t ≤ x.w) :
    l.lstate = .idle ∧ l.pads = Pads.released := by
  have hz := x.bitStart_zero
  have hw := x.w_lt_request
  cases h with
  | before _ hs hp => exact ⟨hs, hp⟩
  | done _ hs hp => exact ⟨hs, hp⟩
  | waitLow m hstart => omega
  | waitHigh m hstart => omega
  | setup k _ htime | high k _ htime =>
    have := x.bitStart_mono (Nat.zero_le k)
    omega

/-- The command begins the writer's first wait (R180), which R216's window lets it afford. -/
theorem writing_startWrite (hx : x.Admitted) {l : Link} (hp : l.pads = Pads.released) :
    x.Writing (x.w + 1) (l.startWrite x.len x.bits) := by
  obtain ⟨-, -, hsetup⟩ := hx.bounds
  have hlate := hx.read_not_late
  have hreq := x.request_eq_max
  refine .waitLow (x.request + x.cfg.syncStages - x.w) (by omega) (by omega) ?_ rfl ?_ ⟨rfl, rfl, rfl⟩
  · simp [Link.startWrite]
    omega
  · simp [Link.startWrite, hp, Pads.released]

/-- From the end of its last bit on the writer has completed (R200). -/
theorem Writing.completed {t : Nat} {l : Link} (h : x.Writing t l) (ht : x.bitStart x.bits.length ≤ t) :
    l.lstate = .idle ∧ l.result = .ok ∧ l.count = x.len := by
  have hz := x.bitStart_zero
  have hw := x.w_lt_request
  have hpos := x.bitStart_mono (Nat.zero_le x.bits.length)
  cases h with
  | before htime => omega
  | waitLow m _ htime => omega
  | waitHigh m _ htime => omega
  | setup k hk htime hend =>
    have := x.bitStart_add_lt_end hk (o := l.dly.toNat) (by omega)
    omega
  | high k hk htime hend =>
    have := x.bitStart_add_lt_end hk (o := x.cfg.tSetup + l.dly.toNat) (by omega)
    omega
  | done _ hs _ hr hc => exact ⟨hs, hr, hc⟩

/-! The reader. -/

theorem Sampled.of_sameReader {k : Nat} {s t : State} (h : x.Sampled k s) (hs : s.SameReader t) : x.Sampled k t :=
  State.Awaits.of_sameReader h hs

/-- What a wait of the reader changes: the state, the pads and the two counters. -/
theorem sameReader_withLink (s : State) (ls : LState) (p : Pads) (tmo dly : BitVec 16) :
    s.SameReader (s.withLink { s.link with lstate := ls, pads := p, tmo := tmo, dly := dly }) := by
  constructor <;> rfl

/-- The phase depends on the parameters, the link registers and RX_BUF alone. -/
theorem Reading.congr {t : Nat} {s u : State} (h : x.Reading t s) (hcfg : u.cfg = s.cfg) (hlink : u.link = s.link)
    (hrx : u.rxBuf = s.rxBuf) : x.Reading t u := by
  have hsame : s.SameReader u := by constructor <;> simp [hcfg, hlink, hrx]
  cases h with
  | before ht hs hp ho => exact .before ht (by rwa [hlink]) (by rwa [hlink]) (hrx.trans ho)
  | waitReq m hstart ht hpolls hs hp hb =>
    exact .waitReq m hstart ht (by rwa [hlink]) (by rwa [hlink]) (by rwa [hlink]) (hb.of_sameReader hsame)
  | ready ht hend hs hp hb =>
    exact .ready (by rwa [hlink]) (by rwa [hlink]) (by rwa [hlink]) (by rwa [hlink]) (hb.of_sameReader hsame)
  | waitHigh k m hk ht hstart hpolls hs hp hb =>
    exact .waitHigh k m hk ht hstart (by rwa [hlink]) (by rwa [hlink]) (by rwa [hlink]) (hb.of_sameReader hsame)
  | waitLow k m hk ht hstart hpolls hs hp hb =>
    exact .waitLow k m hk ht hstart (by rwa [hlink]) (by rwa [hlink]) (by rwa [hlink]) (hb.of_sameReader hsame)
  | done ht hs hp hr hc hst =>
    exact .done ht (by rwa [hlink]) (by rwa [hlink]) (by rwa [hlink]) (by rwa [hlink]) (by rwa [hrx])

/-- While the reader waits for bit `k`, the clock it sees is high from the cycle in which it samples the bit. -/
theorem clkIn_waitHigh {t k m : Nat} (hx : x.Admitted) (hk : k < x.bits.length) (ht : t + m = x.sampleAt k)
    (hstart : k = 0 ∧ x.request + x.cfg.tReady < t ∨ m < x.cfg.tSetup) :
    (x.levels (t - x.cfg.syncStages)).clk = decide (m = 0) := by
  obtain ⟨-, ⟨hset, -⟩, ⟨hhi, -⟩, ⟨hrdy, -⟩, -⟩ := hx.ranges
  have hreq := x.request_eq_max
  have hz := x.bitStart_zero
  unfold sampleAt at ht
  by_cases hm : m ≤ x.cfg.tSetup
  · rw [show t - x.cfg.syncStages = x.bitStart k + (x.cfg.tSetup - m) by omega, x.levels_clk_bit hk (by omega),
      decide_eq_decide]
    omega
  · obtain ⟨rfl, hlo⟩ : k = 0 ∧ x.request + x.cfg.tReady < t := by omega
    rw [x.levels_clk_request (by omega) (by omega), decide_eq_false (by omega)]

/-- While the reader waits for the clock to fall after bit `k`, the clock it sees falls with the next bit's setup. -/
theorem clkIn_waitLow {t k m : Nat} (hx : x.Admitted) (hk : k + 1 < x.bits.length)
    (ht : t + m = x.sampleAt k + x.cfg.tHigh) (hstart : m < x.cfg.tHigh) :
    (!(x.levels (t - x.cfg.syncStages)).clk) = decide (m = 0) := by
  obtain ⟨-, ⟨hset, -⟩, -⟩ := hx.ranges
  have hnext := x.bitStart_succ k
  unfold sampleAt at ht
  by_cases hm : m = 0
  · rw [show t - x.cfg.syncStages = x.bitStart (k + 1) + 0 by omega, x.levels_clk_bit hk (by omega), ← decide_not,
      decide_eq_decide]
    omega
  · rw [show t - x.cfg.syncStages = x.bitStart k + (x.cfg.tSetup + (x.cfg.tHigh - m)) by omega,
      x.levels_clk_bit (by omega) (by omega), ← decide_not, decide_eq_decide]
    omega

/-- The sample of bit `k` ends the read if the bit is the last, or begins the wait for the clock's fall (R203, R205). -/
theorem Sampled.sampleBit (hx : x.Admitted) {k : Nat} {s : State} (hb : x.Sampled k s)
    (hdat : s.datIn = x.bits.getD k true) (hp : s.link.pads = Pads.released) :
    x.Reading (x.sampleAt k + 1) s.sampleBit := by
  obtain ⟨-, -, ⟨hhi, -⟩, -⟩ := hx.ranges
  obtain ⟨hhigh, -⟩ := hx.bounds
  rcases State.Awaits.drop_cases hb with ⟨hlast, u, hu, hn, hst⟩ | ⟨hmore, u, hu, hrest⟩
  · have he : s.sampleBit = u.completeRead x.outcome := by simp only [State.sampleBit, hdat, hu]
    have hlink := State.completeRead_link x.outcome u
    rw [he]
    exact .done (by rw [← hlast]; simp) (by rw [hlink]) (by rw [hlink]) (by rw [hlink]) (by rw [hlink, hn])
      (by rwa [State.completeRead_rxBuf])
  · have he : s.sampleBit = u.withLink { u.link with tmo := 0#16, lstate := .rWaitLow } := by
      simp only [State.sampleBit, hdat, hu]
    have hpads : u.link.pads = s.link.pads := by
      have := (State.destuff_frame (x.bits.getD k true) s).2.2
      rw [hu] at this
      rw [this]
    rw [he]
    exact .waitLow k (x.cfg.tHigh - 1) hmore (by omega) (by omega) (by simp; omega) rfl (hpads.trans hp)
      (State.Awaits.of_sameReader hrest (sameReader_withLink u _ _ _ _))

/-- A cycle of the reader, not the one of its command, carries its phase one cycle on (R201 to R205, R215). -/
theorem Reading.linkTick (hx : x.Admitted) {t : Nat} {s : State} (h : x.Reading t s) (hcfg : s.cfg = x.cfg)
    (hclk : s.clkIn = (x.levels (t - x.cfg.syncStages)).clk)
    (hdat : s.datIn = (x.levels (t - x.cfg.syncStages)).dat) (ht : t ≠ x.r) : x.Reading (t + 1) s.linkTick := by
  obtain ⟨htmo, ⟨hset, -⟩, ⟨hhi, -⟩, ⟨hrdy, hrdy'⟩, hstages, -⟩ := hx.ranges
  obtain ⟨-, -, hsetup⟩ := hx.bounds
  have hz := x.bitStart_zero
  have hreq := x.request_eq_max
  rw [← hcfg] at htmo
  cases h with
  | before htime hs hp hrx =>
    rw [State.linkTick_idle hs]
    exact .before (by omega) hs hp hrx
  | waitReq m hstart htime hpolls hs hp hb =>
    have hcond : (!s.clkIn) = decide (m = 0) := by
      rw [hclk]
      by_cases hm : m = 0
      · rw [x.levels_clk_request (by omega) (by omega), decide_eq_true hm, Bool.not_false]
      · rw [x.levels_clk_before (by omega), decide_eq_false hm, Bool.not_true]
    rw [State.linkTick_rWaitReq hs]
    rcases State.boundedWait_on_time State.leaveWaitReq hcond (by rwa [hcfg]) htmo with
      ⟨rfl, e⟩ | ⟨m, c, rfl, hc, e⟩ <;> rw [e]
    · exact .ready (by simp [State.leaveWaitReq]; omega) hrdy rfl (by simp [State.leaveWaitReq, hp, Pads.released])
        (hb.of_sameReader (sameReader_withLink s _ _ _ _))
    · exact .waitReq m (by omega) (by omega) (by simp only [State.withLink_link]; omega) hs hp
        (hb.of_sameReader (sameReader_withLink s _ _ _ _))
  | ready htime hend hs hp hb =>
    rw [State.linkTick_rReady hs, hcfg]
    rcases State.fixedPhase_on_time State.leaveReady hend hrdy' with ⟨hlast, e⟩ | ⟨c, hlt, hc, e⟩ <;> rw [e]
    · exact .waitHigh 0 (2 * x.cfg.syncStages + x.cfg.tSetup + 1) x.bits_length_pos (by unfold sampleAt; omega)
        (.inl ⟨rfl, by omega⟩) (by simp [State.leaveReady]; omega) rfl
        (by simp [State.leaveReady, hp, Pads.released]) (hb.of_sameReader (sameReader_withLink s _ _ _ _))
    · exact .ready (by simp only [State.withLink_link]; omega) (by simp only [State.withLink_link]; omega) hs hp
        (hb.of_sameReader (sameReader_withLink s _ _ _ _))
  | waitHigh k m hk htime hstart hpolls hs hp hb =>
    rw [State.linkTick_rWaitHigh hs]
    rcases State.boundedWait_on_time State.sampleBit (hclk.trans (clkIn_waitHigh hx hk htime hstart))
      (by rwa [hcfg]) htmo with ⟨rfl, e⟩ | ⟨m, c, rfl, hc, e⟩ <;> rw [e]
    · have hbit : s.datIn = x.bits.getD k true := by
        rw [hdat, show t - x.cfg.syncStages = x.bitStart k + x.cfg.tSetup by unfold sampleAt at htime; omega,
          x.levels_dat_bit hk (by omega)]
      rw [show t = x.sampleAt k from htime]
      exact hb.sampleBit hx hbit hp
    · exact .waitHigh k m hk (by omega) (by omega) (by simp only [State.withLink_link]; omega) hs hp
        (hb.of_sameReader (sameReader_withLink s _ _ _ _))
  | waitLow k m hk htime hstart hpolls hs hp hb =>
    have hnext := x.bitStart_succ k
    have hcond : (!s.clkIn) = decide (m = 0) := by rw [hclk, clkIn_waitLow hx hk htime hstart]
    rw [State.linkTick_rWaitLow hs]
    rcases State.boundedWait_on_time State.leaveClockHigh hcond (by rwa [hcfg]) htmo with
      ⟨rfl, e⟩ | ⟨m, c, rfl, hc, e⟩ <;> rw [e]
    · exact .waitHigh (k + 1) (x.cfg.tSetup - 1) hk (by unfold sampleAt at htime ⊢; omega) (.inr (by omega))
        (by simp [State.leaveClockHigh]; omega) rfl hp (hb.of_sameReader (sameReader_withLink s _ _ _ _))
    · exact .waitLow k m hk (by omega) (by omega) (by simp only [State.withLink_link]; omega) hs hp
        (hb.of_sameReader (sameReader_withLink s _ _ _ _))
  | done htime hs hp hr hc hrx =>
    rw [State.linkTick_idle hs]
    exact .done (by omega) hs hp hr hc hrx

/-- Until its command the reader is idle with both lines released, and RX_BUF is as it was. -/
theorem Reading.idle_of_le {t : Nat} {s : State} (h : x.Reading t s) (ht : t ≤ x.r) :
    s.link.lstate = .idle ∧ s.link.pads = Pads.released ∧ s.rxBuf = x.oldRx := by
  have hz := x.bitStart_zero
  have hr := x.r_lt_request
  cases h with
  | before _ hs hp hrx => exact ⟨hs, hp, hrx⟩
  | waitReq m hstart => omega
  | ready htime => omega
  | waitHigh k m _ htime hstart =>
    have := x.bitStart_mono (Nat.zero_le k)
    unfold sampleAt at htime
    omega
  | waitLow k m _ htime =>
    have := x.bitStart_mono (Nat.zero_le k)
    unfold sampleAt at htime
    omega
  | done htime =>
    have := x.bitStart_mono (Nat.zero_le (x.bits.length - 1))
    unfold sampleAt at htime
    omega

/-- The frame completes a read that begins with its registers cleared (R186 to R193). -/
theorem sampled_of_cleared (hx : x.Admitted) {s : State} (hcfg : s.cfg = x.cfg) (hcap : s.link.rCap = x.cap)
    (hc : s.link.rCount = 0#8) (hn : s.link.rNbits = 0#3) (ho : s.link.rOnes = 0#3) (ht : s.link.rTail = false)
    (hrx : s.rxBuf = x.oldRx) : x.Sampled 0 s := by
  have hlen := hx.payload_length
  have hmin : min x.payload.length 255 = x.len.toNat := by
    have := x.len.isLt
    omega
  obtain ⟨⟨u, hu⟩, t, hend, hcount, hin, hout⟩ := State.destuffAll_frame x.payload hc hn ho ht
  rw [hcfg] at hu
  rw [hcfg, hcap, hmin] at hend
  rw [hcap, hlen] at hin hout
  refine State.awaits_of_destuffAll (List.ne_nil_of_length_pos x.bits_length_pos) hu hend
    (BitVec.eq_of_toNat_eq (hcount.trans hmin)) ⟨hin, fun i hi => ?_⟩
  rw [hout i hi, hrx]

/-- The command begins the reader's first wait (R186), which R216's window lets it afford. -/
theorem reading_startRead (hx : x.Admitted) {s : State} {l : Link} (hcfg : s.cfg = x.cfg)
    (hp : l.pads = Pads.released) (hlink : s.link = l.startRead x.cap) (hrx : s.rxBuf = x.oldRx) :
    x.Reading (x.r + 1) s := by
  obtain ⟨-, -, hsetup⟩ := hx.bounds
  have hearly := hx.read_not_early
  have hreq := x.request_eq_max
  refine .waitReq (x.request - x.r - 1) (by omega) (by omega) ?_ (by rw [hlink]; rfl) (by rw [hlink]; exact hp)
    (sampled_of_cleared hx hcfg (by rw [hlink]; rfl) (by rw [hlink]; rfl) (by rw [hlink]; rfl) (by rw [hlink]; rfl)
      (by rw [hlink]; rfl) hrx)
  rw [hlink]
  simp [Link.startRead]
  omega

/-- After the sample of the last bit the reader has completed (R205). -/
theorem Reading.completed {t : Nat} {s : State} (h : x.Reading t s) (ht : x.sampleAt (x.bits.length - 1) < t) :
    s.link.lstate = .idle ∧ s.link.result = x.outcome ∧ s.link.count = x.len ∧ x.Stored s.rxBuf := by
  have hz := x.bitStart_zero
  have hr := x.r_lt_request
  have hlast := x.bitStart_mono (Nat.zero_le (x.bits.length - 1))
  cases h with
  | before htime => unfold sampleAt at ht; omega
  | waitReq m _ htime => unfold sampleAt at ht; omega
  | ready htime hend => unfold sampleAt at ht; omega
  | waitHigh k m hk htime =>
    have := x.bitStart_mono (show k ≤ x.bits.length - 1 by omega)
    unfold sampleAt at htime ht
    omega
  | waitLow k m hk htime =>
    have := x.bitStart_mono (show k + 1 ≤ x.bits.length - 1 by omega)
    rw [bitStart_succ] at this
    unfold sampleAt at htime ht
    omega
  | done _ hs _ hr hc hrx => exact ⟨hs, hr, hc, hrx⟩

end Exchange

end Sys2Proof.Machine
end

section
/-! The delivery of a frame in lockstep (R213, R216). -/

namespace Sys2Proof.Machine

namespace Exchange

variable {x : Exchange}

/-- An endpoint at time `t`: its parameters, the inputs to come of its queue, and synchronisers that show the wires of
the timeline SYNC_STAGES cycles late (R172). Before time 0 the wires were idle, as they are at time 0. -/
structure Hears (x : Exchange) (queue : List CycleIn) (t : Nat) (s : State) : Prop where
  cfg : s.cfg = x.cfg
  inputs : s.env.inputs = queue.drop t
  clk : ∀ i < x.cfg.syncStages, s.sync.clk.getD i true = (x.levels (t - (i + 1))).clk
  dat : ∀ i < x.cfg.syncStages, s.sync.dat.getD i true = (x.levels (t - (i + 1))).dat

theorem Hears.clkIn (hx : x.Admitted) {queue : List CycleIn} {t : Nat} {s : State} (h : x.Hears queue t s) :
    s.clkIn = (x.levels (t - x.cfg.syncStages)).clk := by
  obtain ⟨-, -, -, -, hstages, -⟩ := hx.ranges
  rw [State.clkIn, h.cfg, h.clk _ (by omega), Nat.sub_add_cancel hstages]

theorem Hears.datIn (hx : x.Admitted) {queue : List CycleIn} {t : Nat} {s : State} (h : x.Hears queue t s) :
    s.datIn = (x.levels (t - x.cfg.syncStages)).dat := by
  obtain ⟨-, -, -, -, hstages, -⟩ := hx.ranges
  rw [State.datIn, h.cfg, h.dat _ (by omega), Nat.sub_add_cancel hstages]

/-- A synchroniser's stages one cycle on. -/
theorem shiftStages_getD {n i : Nat} (level : Bool) (stages : List Bool) (h : i < n) :
    (shiftStages n level stages).getD i true = (level :: stages).getD i true := by
  simp [shiftStages, List.getD_eq_getElem?_getD, List.getElem?_take_of_lt h]

theorem Hears.clocked {queue : List CycleIn} {t : Nat} {s u : State} (h : x.Hears queue t s)
    (hu : s.Clocked (x.levels t) u) : x.Hears queue (t + 1) u where
  cfg := hu.cfg.trans h.cfg
  inputs := by rw [hu.inputs, h.inputs, List.tail_drop]
  clk i hi := by
    rw [hu.sync, h.cfg, Sync.shift, shiftStages_getD _ _ hi]
    cases i with
    | zero => rfl
    | succ i => rw [List.getD_cons_succ, h.clk i (by omega), Nat.add_sub_add_right]
  dat i hi := by
    rw [hu.sync, h.cfg, Sync.shift, shiftStages_getD _ _ hi]
    cases i with
    | zero => rfl
    | succ i => rw [List.getD_cons_succ, h.dat i (by omega), Nat.add_sub_add_right]

/-- The queue of a host that issues one command in cycle `n`. -/
def queueOf (n : Nat) (v : Word) : List CycleIn := List.replicate n CycleIn.quiet ++ [CycleIn.command v]

theorem Hears.nextInput {n t : Nat} {v : Word} {s : State} (h : x.Hears (queueOf n v) t s) :
    s.nextInput = if t = n then CycleIn.command v else CycleIn.quiet := by
  rw [State.nextInput, h.inputs, queueOf]
  rcases lt_trichotomy t n with hlt | rfl | hgt
  · obtain ⟨k, rfl⟩ := Nat.exists_eq_add_of_lt hlt
    rw [if_neg (by omega), List.drop_append_of_le_length (by simp; omega), List.drop_replicate,
      show t + k + 1 - t = k + 1 by omega]
    rfl
  · simp
  · rw [if_neg (by omega), List.drop_eq_nil_of_le (by simp; omega)]
    rfl

/-- The writer's endpoint at time `t`. -/
structure WriterAt (x : Exchange) (t : Nat) (s : State) : Prop where
  hears : x.Hears (queueOf x.w (encode (.linkWrite x.len))) t s
  writing : x.Writing t s.link
  payload : s.payload x.len = x.payload

/-- The reader's endpoint at time `t`. -/
structure ReaderAt (x : Exchange) (t : Nat) (s : State) : Prop where
  hears : x.Hears (queueOf x.r (encode (.linkRead x.cap))) t s
  reading : x.Reading t s

/-- A cycle of the writer's endpoint on the wires of the timeline. -/
theorem WriterAt.clockOn (hx : x.Admitted) {t : Nat} {s : State} (h : x.WriterAt t s) :
    ∃ u, (s.withNextRst false).clockOn (x.levels t) = .next u ∧ x.WriterAt (t + 1) u := by
  have hin := h.hears.nextInput
  have hpayload : ∀ u, s.Clocked (x.levels t) u → u.payload x.len = x.payload := fun u hu => by
    rw [← h.payload, State.payload, State.payload, hu.txBuf]
  by_cases ht : t = x.w
  · subst ht
    obtain ⟨hidle, hp⟩ := h.writing.idle_of_le le_rfl
    have hclk : s.clkIn = true := by rw [h.hears.clkIn hx, x.levels_clk_before (Nat.sub_le _ _)]
    have hlen : x.len.toNat ≤ s.cfg.linkBuf := by rw [h.hears.cfg]; exact hx.len_le
    rw [if_pos rfl] at hin
    obtain ⟨u, hu, hclocked, hlink⟩ := State.clockOn_linkWrite hin hidle hlen hclk (x.levels x.w)
    refine ⟨u, hu, h.hears.clocked hclocked, ?_, hpayload u hclocked⟩
    rw [hlink, h.payload, h.hears.cfg]
    exact writing_startWrite hx hp
  · rw [if_neg ht] at hin
    obtain ⟨v, u, hu, hclocked, hv, hlink, -⟩ := State.clockOn_quiet hin (x.levels t)
    refine ⟨u, hu, h.hears.clocked hclocked, ?_, hpayload u hclocked⟩
    have hcfg : v.cfg = x.cfg := hv.cfg.trans h.hears.cfg
    have hdat : v.datIn = (x.levels (t - x.cfg.syncStages)).dat := by
      rw [← h.hears.datIn hx, State.datIn, State.datIn, hv.sync, hv.cfg]
    rw [hlink]
    exact Writing.linkTick hx (by rw [hv.link]; exact h.writing) hcfg hdat ht

/-- A cycle of the reader's endpoint on the wires of the timeline. -/
theorem ReaderAt.clockOn (hx : x.Admitted) {t : Nat} {s : State} (h : x.ReaderAt t s) :
    ∃ u, (s.withNextRst false).clockOn (x.levels t) = .next u ∧ x.ReaderAt (t + 1) u := by
  have hin := h.hears.nextInput
  by_cases ht : t = x.r
  · subst ht
    obtain ⟨hidle, hp, hrx⟩ := h.reading.idle_of_le le_rfl
    have hcap : x.cap.toNat ≤ s.cfg.linkBuf := by rw [h.hears.cfg]; exact hx.cap_le
    rw [if_pos rfl] at hin
    obtain ⟨u, hu, hclocked, hlink, hrx'⟩ := State.clockOn_linkRead hin hidle hcap (x.levels x.r)
    exact ⟨u, hu, h.hears.clocked hclocked,
      reading_startRead hx (hclocked.cfg.trans h.hears.cfg) hp hlink (hrx'.trans hrx)⟩
  · rw [if_neg ht] at hin
    obtain ⟨v, u, hu, hclocked, hv, hlink, hrx⟩ := State.clockOn_quiet hin (x.levels t)
    have hcfg : v.cfg = x.cfg := hv.cfg.trans h.hears.cfg
    have hclk : v.clkIn = (x.levels (t - x.cfg.syncStages)).clk := by
      rw [← h.hears.clkIn hx, State.clkIn, State.clkIn, hv.sync, hv.cfg]
    have hdat : v.datIn = (x.levels (t - x.cfg.syncStages)).dat := by
      rw [← h.hears.datIn hx, State.datIn, State.datIn, hv.sync, hv.cfg]
    have htick := Reading.linkTick hx (h.reading.congr hv.cfg hv.link hv.rxBuf) hcfg hclk hdat ht
    have hcfg' : u.cfg = v.linkTick.cfg := by rw [hclocked.cfg, (State.linkOnly_linkTick v).cfg, hv.cfg]
    exact ⟨u, hu, h.hears.clocked hclocked, htick.congr hcfg' hlink hrx⟩

/-- The pair at time `t` of R216's timeline. -/
structure At (x : Exchange) (t : Nat) (p : Pair) : Prop where
  marks : p.marks = []
  writer : x.WriterAt t p.a
  reader : x.ReaderAt t p.b

/-- The wires carry the timeline's levels. -/
theorem At.levels {t : Nat} {p : Pair} (h : x.At t p) : p.levels = x.levels t := by
  rw [Pair.levels, wireLevels, h.writer.writing.pads, h.reader.reading.pads, clockWire_eq_levels, dataWire_eq_levels]
  rfl

/-- No wire is contended (R213). -/
theorem At.marksAfter {t : Nat} {p : Pair} (h : x.At t p) : p.resolve.marks = [] := by
  rw [Pair.resolve, h.writer.writing.pads, h.reader.reading.pads]
  simp only [Machine.marksAfter, clockWire_eq_levels, dataWire_eq_levels, h.marks]
  rfl

/-- A cycle in lockstep carries the timeline one cycle on. -/
theorem At.lockstep (hx : x.Admitted) {t : Nat} {p : Pair} (h : x.At t p) :
    ∃ q, p.lockstep = .next q ∧ x.At (t + 1) q := by
  obtain ⟨s, hs, hwriter⟩ := h.writer.clockOn hx
  obtain ⟨u, hu, hreader⟩ := h.reader.clockOn hx
  have hcfg := h.writer.hears.cfg
  have hrst : ∀ (n : Nat) (v : Word), (if t = n then CycleIn.command v else CycleIn.quiet).rst = false := fun n v => by
    split <;> rfl
  rw [← h.levels] at hs hu
  exact ⟨_, Pair.lockstep_of_next (hcfg ▸ hx.inRange) (hcfg ▸ hx.bound) (h.reader.hears.cfg.trans hcfg.symm)
    (by rw [h.writer.hears.nextInput, hrst]) (by rw [h.reader.hears.nextInput, hrst]) hs hu,
    h.marksAfter, hwriter, hreader⟩

/-- Idle synchronisers show the wires of the timeline at time 0 (R39, R49). -/
theorem hears_zero {queue : List CycleIn} {s : State} (hcfg : s.cfg = x.cfg) (hsync : s.sync = Sync.reset x.cfg)
    (hin : s.env.inputs = queue) : x.Hears queue 0 s where
  cfg := hcfg
  inputs := hin
  clk i hi := by
    rw [hsync, Nat.zero_sub, x.levels_clk_before (Nat.zero_le _)]
    simp [Sync.reset, hi]
  dat i hi := by
    have hlt : 0 < x.bitStart 0 := by
      rw [bitStart_zero]
      omega
    rw [hsync, Nat.zero_sub, x.levels_dat_handshake hlt, decide_eq_false (by omega)]
    simp [Sync.reset, hi]

/-- A lockstep run of an admitted transaction follows R216's timeline. -/
theorem runLockstep_at (hx : x.Admitted) {p : Pair} (h : x.At 0 p) (n : Nat) :
    ∃ q, p.runLockstep n = .next q ∧ x.At n q :=
  Pair.runLockstep_induction h (fun _ _ hq => hq.lockstep hx) n

end Exchange

/-- Settles O55: R216's timeline holds at the start and is kept by every cycle in lockstep, and at its end both
endpoints have completed. -/
theorem lockstepDelivers : Obligations.LockstepDelivers := by
  intro c p len cap w r hrange hbound hca hcb hlen hcap hsa hpa hya hsb hpb hyb hina hinb hmarks hearly hlate
  let x : Exchange := ⟨c, w, r, len, cap, p.a.payload len, p.b.rxBuf⟩
  have hpayload : x.payload.length = len.toNat := by simp [x, State.payload]
  have hx : x.Admitted := ⟨hrange, hbound, hlen, hcap, hpayload, hearly, hlate⟩
  have hstart : x.At 0 p :=
    ⟨hmarks, ⟨Exchange.hears_zero hca hya hina, .before (Nat.zero_le _) hsa hpa, rfl⟩,
      Exchange.hears_zero hcb hyb hinb, .before (Nat.zero_le _) hsb hpb rfl⟩
  intro n handshake writerIdle readerIdle
  have hwriter : x.bitStart x.bits.length ≤ max writerIdle readerIdle := le_max_left _ _
  have hreader : x.sampleAt (x.bits.length - 1) < max writerIdle readerIdle := by
    refine lt_of_lt_of_le ?_ (le_max_right _ _)
    simp only [Exchange.sampleAt, Exchange.bitStart, readerIdle, handshake, n, x, Exchange.bits]
    omega
  obtain ⟨q, hrun, hend⟩ := Exchange.runLockstep_at hx hstart (max writerIdle readerIdle)
  obtain ⟨has, har, hac⟩ := hend.writer.writing.completed hwriter
  obtain ⟨hbs, hbr, hbc, hin, hout⟩ := hend.reader.reading.completed hreader
  refine ⟨q, hrun, hend.marks, has, har, hac, hbs, hbc, hbr, fun i hi hi' => ?_, hout⟩
  rw [hin i hi hi']
  simp [x, State.payload, hi]

end Sys2Proof.Machine
end

section
/-! SUPPORT. What a cycle can do to the parts of the state that the invariants speak of: the host access with the command
it issues, the link state machine's stores to RX_BUF, and from both the rule that proves an invariant of every step. -/

namespace Sys2Proof.Machine

/-! The host access. -/

/-- What a host access may do to layer memory under the parameters `c`: nothing, or one write with operands in R100's
ranges. -/
inductive LayerMem.Edit (c : Config) (m : LayerMem) : LayerMem → Prop where
  | keep : Edit c m m
  | chord {layer index : Byte} (v : Word) (h : chordOk c layer index = true) : Edit c m (m.setChord layer index v)
  | count {layer n : Byte} (h : countOk c layer n = true) : Edit c m (m.setCount layer n)
  | mod {layer : Byte} (bit : BitVec 4) (v : Byte) (h : layerOk c layer = true) : Edit c m (m.setMod layer bit v)

/-- What a host access may do to the link unit under the parameters `c`: nothing, or a link command accepted on an idle
unit (R178). -/
inductive Link.Begin (c : Config) (l : Link) : Link → Prop where
  | keep : Begin c l l
  | write {len : Byte} {seq : List Bool} (hidle : l.lstate = .idle) (hseq : 0 < seq.length) :
      Begin c l (l.startWrite len seq)
  | alreadyWriting (hidle : l.lstate = .idle) : Begin c l l.alreadyWriting
  | read {cap : Byte} (hidle : l.lstate = .idle) (hcap : lengthOk c cap = true) : Begin c l (l.startRead cap)

/-- What a host access may do to the engine result registers: nothing, or the writes of ST_UPDATE (R145), EVAL_TRIGGERS
(R150) and KH_UPDATE without and with a match (R159, R160). -/
inductive Results.Update (r : Results) : Results → Prop where
  | keep : Update r r
  | jpRet (jp : Mask) : Update r { r with jpRet := jp }
  | trig (b : Bool) : Update r { r with trig := b }
  | noMatch (jp : Mask) : Update r { r with jpRet := jp, matched := false, fired := false, matchIdx := 0#8 }
  | hit (jp : Mask) (fired : Bool) (i : Byte) :
      Update r { r with jpRet := jp, matched := true, fired := fired, matchIdx := i }

/-- Everything a host access can do to the parts of the state the invariants speak of. -/
structure State.AccessEffect (s t : State) : Prop where
  cfg : t.cfg = s.cfg
  tracker : t.tracker = s.tracker ∨ ∃ new, t.tracker = s.tracker.update new
  activeLayer : t.kh.activeLayer = s.kh.activeLayer ∨ layerOk s.cfg t.kh.activeLayer = true
  res : s.res.Update t.res
  layers : s.layers.Edit s.cfg t.layers
  link : s.link.Begin s.cfg t.link
  sync : t.sync = s.sync
  txBuf : t.txBuf = s.txBuf ∨ ∃ k v, t.txBuf = storeWord s.cfg.linkBuf s.txBuf k v
  rxBuf : t.rxBuf = s.rxBuf

namespace State.AccessEffect

theorem refl (s : State) : s.AccessEffect s :=
  ⟨rfl, .inl rfl, .inl rfl, .keep, .keep, .keep, rfl, .inl rfl, rfl⟩

theorem respond {s t : State} (h : s.AccessEffect t) (r : Resp) : s.AccessEffect (t.respond r) := { h with }

theorem of_withCmdLast {s t : State} {v : Word} (h : (s.withCmdLast v).AccessEffect t) : s.AccessEffect t := { h with }

theorem of_checked {ok : Bool} {f : State → State} {s t : State} (h : s.checked ok f = .next t)
    (hf : ok = true → s.AccessEffect (f s)) : s.AccessEffect t := by
  rcases State.checked_cases h with ⟨hok, rfl⟩ | ⟨-, rfl⟩
  · exact (hf hok).respond _
  · exact (refl s).respond _

theorem of_guarded {ok : Bool} {f : State → State} {s t : State} (h : s.guarded ok f = .next t)
    (hf : ok = true → s.link.lstate = .idle → s.AccessEffect (f s)) : s.AccessEffect t := by
  rcases State.guarded_cases h with ⟨hok, hidle, rfl⟩ | ⟨-, -, rfl⟩ | ⟨-, rfl⟩
  · exact (hf hok (by simpa [State.busy] using hidle)).respond _
  · exact (refl s).respond _
  · exact (refl s).respond _

theorem setLayers {s : State} {m : LayerMem} (h : s.layers.Edit s.cfg m) : s.AccessEffect (s.withLayers m) :=
  { refl s with layers := h }

theorem trackerStep (new : Mask) (s : State) : s.AccessEffect (s.trackerStep new) :=
  { refl s with tracker := .inr ⟨new, rfl⟩, res := .jpRet _ }

theorem acceptWrite {s : State} (len : Byte) (hidle : s.link.lstate = .idle) :
    s.AccessEffect (s.acceptWrite len) := by
  have hbegin : s.link.Begin s.cfg (if s.clkIn then
      s.link.startWrite len (frame s.cfg.bitOrder (s.payload len)) else s.link.alreadyWriting) := by
    split
    · exact .write hidle (by simp [frame, endMarker])
    · exact .alreadyWriting hidle
  rw [State.acceptWrite_eq, State.markIf_eq]
  exact { refl s with link := hbegin }

theorem acceptRead {s : State} {cap : Byte} (hcap : lengthOk s.cfg cap = true) (hidle : s.link.lstate = .idle) :
    s.AccessEffect (s.acceptRead cap) := by
  rw [State.acceptRead, State.markIf_eq]
  exact { refl s with link := .read hidle hcap }

end State.AccessEffect

theorem State.khStep_res_update (new : Mask) (s : State) : s.res.Update (s.khStep new).res := by
  change s.res.Update ((s.trackerStep new).applyMatch _ _).res
  rcases State.applyMatch_cases (s.scan s.tracker.state (releaseEdges new s.tracker.state))
    (s.layers.modifier s.kh.activeLayer new) (s.trackerStep new) with ⟨-, h⟩ | ⟨i, -, -, h⟩ | ⟨i, -, -, h⟩ <;> rw [h]
  · exact .noMatch _
  · exact .hit _ _ i
  · exact .hit _ _ i

theorem State.AccessEffect.khStep (new : Mask) (s : State) : s.AccessEffect (s.khStep new) := by
  obtain ⟨hf, -, htracker, hkh⟩ := State.khStep_spec new s
  exact
    { cfg := hf.cfg, sync := hf.sync, rxBuf := hf.rxBuf
      tracker := .inr ⟨new, htracker⟩
      activeLayer := .inl (by rw [hkh])
      res := State.khStep_res_update new s
      layers := hf.layers ▸ .keep
      link := hf.link ▸ .keep
      txBuf := .inl hf.txBuf }

/-- What a command can do: its arm of the opcode map (R97), case by case. -/
theorem exec_effect {i : Instr} {s t : State} (h : exec i s = .next t) : s.AccessEffect t := by
  have hnext {u : State} (hu : s.AccessEffect u) (e : Host.Outcome.next u = exec i s) : s.AccessEffect t := by
    rw [h] at e
    cases e
    exact hu
  cases i with
  | nop => exact hnext ((State.AccessEffect.refl s).respond .accepted) rfl
  | linkWrite len => exact .of_guarded h fun _ hidle => .acceptWrite len hidle
  | linkRead cap => exact .of_guarded h fun hcap hidle => .acceptRead hcap hidle
  | stUpdate l r => exact hnext ((State.AccessEffect.trackerStep (combine l r) s).respond .accepted) rfl
  | khUpdate l r => exact hnext ((State.AccessEffect.khStep (combine l r) s).respond .accepted) rfl
  | evalTriggers =>
    have hres : s.AccessEffect (s.withRes { s.res with
        trig := triggers (evalTrigger s.host.arg0) (evalLast s.host.arg0) (evalReleased s.host.arg1) }) :=
      { State.AccessEffect.refl s with res := .trig _ }
    exact hnext (hres.respond .accepted) rfl
  | setActiveLayer l => exact .of_checked h fun hl => { State.AccessEffect.refl s with activeLayer := .inr hl }
  | chordWrite l i => exact .of_checked h fun hok => .setLayers (.chord _ hok)
  | chordRead l i => exact .of_checked h fun _ => { State.AccessEffect.refl s with }
  | setChordCount l n => exact .of_checked h fun hok => .setLayers (.count hok)
  | modmapWrite l b m => exact .of_checked h fun hok => .setLayers (.mod b m hok)
  | modmapRead l b => exact .of_checked h fun _ => { State.AccessEffect.refl s with }

theorem State.storeTx_effect (k : Nat) (v : Word) (s : State) : s.AccessEffect (s.storeTx k v) := by
  rw [State.storeTx_eq]
  refine { State.AccessEffect.refl s with txBuf := ?_ }
  rw [State.withTxBuf_txBuf]
  split
  · exact .inl rfl
  · exact .inr ⟨k, v, rfl⟩

/-- What the host access of a cycle can do. -/
theorem State.hostAccess_effect {op : Option BusOp} {s t : State} (h : s.hostAccess op = .next t) :
    s.AccessEffect t := by
  rcases State.hostAccess_cases h with rfl | ⟨v, rfl⟩ | ⟨v, rfl⟩ | ⟨k, v, rfl⟩ | ⟨v, i, -, he⟩ | ⟨v, e, -, rfl⟩
  · exact .refl _
  · exact { State.AccessEffect.refl s with }
  · exact { State.AccessEffect.refl s with }
  · exact State.storeTx_effect k v s
  · exact (exec_effect he).of_withCmdLast
  · exact ((State.AccessEffect.refl (s.withCmdLast v)).respond _).of_withCmdLast

/-! The link state machine's stores to RX_BUF. -/

/-- RX_BUF is as it was, or has one byte stored below the read's capacity (R190). -/
def State.RxStored (s t : State) : Prop :=
  t.rxBuf = s.rxBuf ∨ ∃ i b, i < s.link.rCap.toNat ∧ t.rxBuf = Memory.write s.rxBuf i b

theorem State.rxStored_destuff (x : Bool) (s : State) : s.RxStored (s.destuff x).1 := by
  unfold State.destuff
  split
  · split <;> exact .inl rfl
  · split
    · split <;> exact .inl rfl
    · by_cases h : s.link.rNbits = 7#3 ∧ s.link.rCount.toNat < s.link.rCap.toNat
      · exact .inr ⟨_, _, h.2, by rw [State.takeBit_rxBuf, if_pos h]⟩
      · exact .inl (by rw [State.takeBit_rxBuf, if_neg h])

theorem State.rxStored_sampleBit (s : State) : s.RxStored s.sampleBit := by
  have hstored := State.rxStored_destuff s.datIn s
  rcases State.sampleBit_cases s with ⟨t, e, hd, h⟩ | ⟨t, hd, h⟩ <;> rw [h] <;> rw [hd] at hstored
  · simpa [State.RxStored] using hstored
  · simpa [State.RxStored] using hstored

theorem State.rxBuf_boundedWait {cond : Bool} {leave : State → State} {s : State} (h : (leave s).rxBuf = s.rxBuf) :
    (s.boundedWait cond leave).rxBuf = s.rxBuf := by
  rcases State.boundedWait_cases cond leave s with ⟨-, e⟩ | ⟨-, -, e⟩ | ⟨-, -, e⟩ <;> rw [e]
  · exact h
  · exact State.failTimeout_rxBuf s
  · rfl

theorem State.rxBuf_fixedPhase {n : Nat} {leave : State → State} {s : State} (h : (leave s).rxBuf = s.rxBuf) :
    (s.fixedPhase n leave).rxBuf = s.rxBuf := by
  rcases State.fixedPhase_cases n leave s with ⟨-, e⟩ | ⟨-, e⟩ <;> rw [e]
  · exact h
  · rfl

theorem State.rxBuf_leaveHigh (s : State) : s.leaveHigh.rxBuf = s.rxBuf := by
  rcases State.leaveHigh_cases s with ⟨-, e⟩ | ⟨-, e⟩ <;> rw [e] <;> rfl

/-- Only a reader that samples a bit stores to RX_BUF, in `R_WAIT_HIGH` (R203). -/
theorem State.rxStored_linkTick (s : State) :
    s.linkTick.rxBuf = s.rxBuf ∨ (s.link.lstate = .rWaitHigh ∧ s.RxStored s.linkTick) := by
  cases h : s.link.lstate with
  | idle => exact .inl (by rw [State.linkTick_idle h])
  | wWaitLow => exact .inl (by rw [State.linkTick_wWaitLow h]; exact State.rxBuf_boundedWait rfl)
  | wWaitHigh => exact .inl (by rw [State.linkTick_wWaitHigh h]; exact State.rxBuf_boundedWait rfl)
  | wSetup => exact .inl (by rw [State.linkTick_wSetup h]; exact State.rxBuf_fixedPhase rfl)
  | wHigh => exact .inl (by rw [State.linkTick_wHigh h]; exact State.rxBuf_fixedPhase (State.rxBuf_leaveHigh s))
  | rWaitReq => exact .inl (by rw [State.linkTick_rWaitReq h]; exact State.rxBuf_boundedWait rfl)
  | rReady => exact .inl (by rw [State.linkTick_rReady h]; exact State.rxBuf_fixedPhase rfl)
  | rWaitLow => exact .inl (by rw [State.linkTick_rWaitLow h]; exact State.rxBuf_boundedWait rfl)
  | rWaitHigh =>
    refine .inr ⟨rfl, ?_⟩
    rw [State.linkTick_rWaitHigh h]
    rcases State.boundedWait_cases s.clkIn State.sampleBit s with ⟨-, e⟩ | ⟨-, -, e⟩ | ⟨-, -, e⟩ <;> rw [e]
    · exact State.rxStored_sampleBit s
    · exact .inl (State.failTimeout_rxBuf s)
    · exact .inl rfl

/-! The rule for an invariant of every step. -/

/-- The end of a cycle: beside the key output and the model's own fields, the link state machine if the block was busy,
and the synchronisers. -/
theorem State.endCycle_cases (inp : CycleIn) (lv : Levels) (fire busy : Bool) (s : State) :
    ∃ k e, (busy = false ∧ s.endCycle inp lv fire busy = ((s.withKey k).withEnv e).shiftSync lv) ∨
      (busy = true ∧ s.endCycle inp lv fire busy = ((s.withKey k).withEnv e).linkTick.shiftSync lv) := by
  rw [State.endCycle_eq, State.sampleSink_eq]
  cases busy
  · exact ⟨_, _, .inl ⟨rfl, rfl⟩⟩
  · exact ⟨_, _, .inr ⟨rfl, rfl⟩⟩

/-- A property that reset establishes and that every part of a cycle keeps is kept by every step. -/
theorem step_keeps {P : State → Prop}
    (hreset : ∀ s e, P s → P ((State.resetWith s.cfg).withEnv e))
    (hside : ∀ s k e, P s → P ((s.withKey k).withEnv e))
    (haccess : ∀ s t, s.AccessEffect t → P s → P t)
    (htick : ∀ s, P s → P s.linkTick)
    (hsync : ∀ s lv, P s → P (s.shiftSync lv))
    {s t : State} (hs : P s) (h : step s = .next t) : P t := by
  obtain ⟨-, ⟨-, rfl⟩ | ⟨-, u, hu, rfl⟩⟩ := step_cases h
  · exact hreset s _ hs
  · have hbegun : P ((s.resolveWires s.nextInput.peer).beginCycle s.nextInput) := hside s _ _ hs
    have hdone : P u := haccess _ u (State.hostAccess_effect hu) hbegun
    obtain ⟨k, e, ⟨-, hend⟩ | ⟨-, hend⟩⟩ := State.endCycle_cases s.nextInput
      (wireLevels s.link.pads s.nextInput.peer s.env.draws) s.key.firePending s.busy u <;> rw [hend]
    · exact hsync _ _ (hside u k e hdone)
    · exact hsync _ _ (htick _ (hside u k e hdone))

end Sys2Proof.Machine
end

section
/-! SUPPORT. The canonical form of the five tables (log 8) is kept by every step. -/

namespace Sys2Proof.Machine

/-- The three tables of layer memory are in their canonical form. -/
def LayerMem.Canonical (m : LayerMem) : Prop :=
  Memory.wf m.chords = true ∧ Memory.wf m.counts = true ∧ Memory.wf m.mods = true

theorem State.memoryWf_iff (s : State) :
    s.memoryWf = true ↔ s.layers.Canonical ∧ Memory.wf s.txBuf = true ∧ Memory.wf s.rxBuf = true := by
  simp [State.memoryWf, LayerMem.Canonical, and_assoc]

theorem LayerMem.Edit.canonical {c : Config} {m n : LayerMem} (h : m.Edit c n) (hm : m.Canonical) : n.Canonical := by
  obtain ⟨hchords, hcounts, hmods⟩ := hm
  cases h with
  | keep => exact ⟨hchords, hcounts, hmods⟩
  | chord v _ => exact ⟨Memory.wf_write _ v hchords, hcounts, hmods⟩
  | count _ => exact ⟨hchords, Memory.wf_write _ _ hcounts, hmods⟩
  | mod b v _ => exact ⟨hchords, hcounts, Memory.wf_write _ v hmods⟩

theorem State.AccessEffect.memoryWf {s t : State} (h : s.AccessEffect t) (hs : s.memoryWf = true) :
    t.memoryWf = true := by
  obtain ⟨hlayers, htx, hrx⟩ := s.memoryWf_iff.mp hs
  refine t.memoryWf_iff.mpr ⟨h.layers.canonical hlayers, ?_, h.rxBuf ▸ hrx⟩
  rcases h.txBuf with e | ⟨k, v, e⟩ <;> rw [e]
  · exact htx
  · exact wf_storeWord _ k v htx

theorem State.RxStored.wf {s t : State} (h : s.RxStored t) (hs : Memory.wf s.rxBuf = true) :
    Memory.wf t.rxBuf = true := by
  rcases h with e | ⟨i, b, -, e⟩ <;> rw [e]
  · exact hs
  · exact Memory.wf_write i b hs

theorem State.memoryWf_linkTick {s : State} (hs : s.memoryWf = true) : s.linkTick.memoryWf = true := by
  obtain ⟨hlayers, htx, hrx⟩ := s.memoryWf_iff.mp hs
  have hf := State.linkOnly_linkTick s
  have hstored : s.RxStored s.linkTick := (State.rxStored_linkTick s).elim .inl And.right
  exact s.linkTick.memoryWf_iff.mpr ⟨hf.layers ▸ hlayers, hf.txBuf ▸ htx, hstored.wf hrx⟩

/-- Settles O58: every table the state lists is written by `Memory.write` alone, which keeps the canonical form. -/
theorem stepKeepsTablesCanonical : Obligations.StepKeepsTablesCanonical := by
  intro s t hs h
  exact step_keeps (P := fun s => s.memoryWf = true) (fun _ _ _ => rfl) (fun _ _ _ hu => hu)
    (fun _ _ heff hu => heff.memoryWf hu) (fun _ hu => State.memoryWf_linkTick hu) (fun _ _ hu => hu) hs h

end Sys2Proof.Machine
end

section
/-! SUPPORT. The link unit's invariants (R41 to R43, R173, R209 to R211): every link command that a host access begins and
every cycle of the link state machine keep them. -/

namespace Sys2Proof.Machine

/-- What R8 asks of the parameters that the invariants use. -/
theorem Config.ranges {c : Config} (h : c.inRange = true) :
    (1 ≤ c.timeout ∧ c.timeout ≤ 65536) ∧ (1 ≤ c.tSetup ∧ c.tSetup ≤ 65536) ∧
    (1 ≤ c.tHigh ∧ c.tHigh ≤ 65536) ∧ (1 ≤ c.tReady ∧ c.tReady ≤ 65536) ∧ 1 ≤ c.nLayers := by
  obtain ⟨htimeout, hsetup, hhigh, hready, -, -, hlayers, -⟩ := of_decide_eq_true h
  exact ⟨htimeout, hsetup, hhigh, hready, hlayers.1⟩

/-- `LinkInv` without the synchronisers, for the link registers alone. -/
structure Link.Sound (c : Config) (l : Link) : Prop where
  pads : l.pads = l.padsOf
  spent : l.lstate ≠ .idle → l.spent < l.lstate.budget c
  tmo : l.tmo.toNat < c.timeout
  dly : l.dly.toNat < max (max c.tSetup c.tHigh) c.tReady
  inFlight : l.lstate ≠ .idle → l.result = .none ∧ l.count = 0#8
  result : l.result ≠ .other
  bitToSend : l.lstate.isWrite = true → l.p < l.wseq.length
  firstBit : l.lstate = .wWaitLow ∨ l.lstate = .wWaitHigh → l.p = 0
  capacity : l.lstate.isRead = true → l.rCap.toNat ≤ c.linkBuf
  ones : l.rOnes.toNat ≤ 5

theorem State.linkInv_iff (s : State) :
    s.LinkInv ↔ s.link.Sound s.cfg ∧ s.sync.clk.length = s.cfg.syncStages ∧ s.sync.dat.length = s.cfg.syncStages := by
  constructor
  · rintro ⟨hpads, hspent, htmo, hdly, hflight, hresult, hbit, hfirst, hcap, hones, hclk, hdat⟩
    exact ⟨⟨hpads, hspent, htmo, hdly, hflight, hresult, hbit, hfirst, hcap, hones⟩, hclk, hdat⟩
  · rintro ⟨⟨hpads, hspent, htmo, hdly, hflight, hresult, hbit, hfirst, hcap, hones⟩, hclk, hdat⟩
    exact ⟨hpads, hspent, htmo, hdly, hflight, hresult, hbit, hfirst, hcap, hones, hclk, hdat⟩

namespace Link.Sound

variable {c : Config} {l : Link}

theorem timeout_pos (h : l.Sound c) : 0 < c.timeout := Nat.zero_lt_of_lt h.tmo

theorem dly_zero (h : l.Sound c) : (0#16).toNat < max (max c.tSetup c.tHigh) c.tReady := Nat.zero_lt_of_lt h.dly

/-! Link commands. -/

theorem startWrite (h : l.Sound c) (hidle : l.lstate = .idle) (len : Byte) {seq : List Bool} (hseq : 0 < seq.length) :
    (l.startWrite len seq).Sound c where
  pads := by simp [Link.startWrite, Link.padsOf, h.pads, hidle, Pads.released]
  spent _ := h.timeout_pos
  tmo := h.timeout_pos
  dly := h.dly
  inFlight _ := ⟨rfl, rfl⟩
  result := nofun
  bitToSend _ := hseq
  firstBit _ := rfl
  capacity := nofun
  ones := h.ones

theorem alreadyWriting (h : l.Sound c) (hidle : l.lstate = .idle) : l.alreadyWriting.Sound c :=
  { h with
    pads := h.pads
    inFlight := fun hbusy => absurd hidle hbusy
    result := nofun }

theorem startRead (h : l.Sound c) (hidle : l.lstate = .idle) {cap : Byte} (hcap : cap.toNat ≤ c.linkBuf) :
    (l.startRead cap).Sound c where
  pads := by simp [Link.startRead, Link.padsOf, h.pads, hidle]
  spent _ := h.timeout_pos
  tmo := h.timeout_pos
  dly := h.dly
  inFlight _ := ⟨rfl, rfl⟩
  result := nofun
  bitToSend := nofun
  firstBit := nofun
  capacity _ := hcap
  ones := Nat.zero_le _

theorem of_begin (h : l.Sound c) {k : Link} (hk : l.Begin c k) : k.Sound c := by
  cases hk with
  | keep => exact h
  | write hidle hseq => exact h.startWrite hidle _ hseq
  | alreadyWriting hidle => exact h.alreadyWriting hidle
  | read hidle hcap => exact h.startRead hidle (of_decide_eq_true hcap)

/-! The end of a transaction, and the cycles that count. -/

theorem ended (h : l.Sound c) {r : Result} (hr : r ≠ .other) (n : Byte) :
    Link.Sound c { l with pads := Pads.released, result := r, count := n, lstate := .idle } where
  pads := rfl
  spent hbusy := absurd rfl hbusy
  tmo := h.tmo
  dly := h.dly
  inFlight hbusy := absurd rfl hbusy
  result := hr
  bitToSend := nofun
  firstBit := nofun
  capacity := nofun
  ones := h.ones

/-- `tmo` is what a bounded state has spent; the others do not read it. -/
theorem spent_withTmo (c : Config) (l : Link) (v : BitVec 16) :
    (l.lstate.budget c = c.timeout ∧ Link.spent { l with tmo := v } = v.toNat) ∨
      Link.spent { l with tmo := v } = l.spent := by
  cases hl : l.lstate <;> simp [Link.spent, LState.budget, hl]

/-- A failed poll that is not the last of a bounded wait (R194). -/
theorem countPoll (h : l.Sound c) (hmax : c.timeout ≤ 65536) (hpoll : l.tmo.toNat + 1 ≠ c.timeout) :
    Link.Sound c { l with tmo := l.tmo + 1#16 } := by
  have hlt : (l.tmo + 1#16).toNat < c.timeout := by
    have := h.tmo
    rw [toNat_add_one_of_lt (n := c.timeout) (by omega) hmax]
    omega
  refine { h with pads := h.pads, tmo := hlt, spent := fun hbusy => ?_ }
  rcases spent_withTmo c l (l.tmo + 1#16) with ⟨hwait, hspent⟩ | hspent <;> rw [hspent]
  · exact hwait ▸ hlt
  · exact h.spent hbusy

/-- A cycle that is not the last of a fixed phase (R198, R199, R202). -/
theorem countCycle (h : l.Sound c) {n : Nat} (hn : n ≤ max (max c.tSetup c.tHigh) c.tReady) (hmax : n ≤ 65536)
    (hlast : l.dly.toNat + 1 ≠ n) (hphase : l.lstate.budget c = n) (hbusy : l.lstate ≠ .idle)
    (hspent : ∀ v, Link.spent { l with dly := v } = v.toNat) :
    Link.Sound c { l with dly := l.dly + 1#16 } := by
  have hlt : (l.dly + 1#16).toNat < n := by
    have hin : l.dly.toNat < n := by
      have := h.spent hbusy
      rwa [hphase, hspent l.dly] at this
    rw [toNat_add_one_of_lt (n := n) (by omega) hmax]
    omega
  exact { h with pads := h.pads, dly := lt_of_lt_of_le hlt hn, spent := fun _ => by rw [hspent]; exact hphase ▸ hlt }

/-! The transitions within a transaction. -/

theorem leaveWaitLow (h : l.Sound c) (hl : l.lstate = .wWaitLow) :
    Link.Sound c { l with tmo := 0#16, lstate := .wWaitHigh } :=
  { h with
    pads := by simp [Link.padsOf, h.pads, hl]
    spent := fun _ => h.timeout_pos
    tmo := h.timeout_pos
    inFlight := fun _ => h.inFlight (by simp [hl])
    bitToSend := fun _ => h.bitToSend (by simp [hl, LState.isWrite])
    firstBit := fun _ => h.firstBit (.inl hl)
    capacity := nofun }

theorem leaveWaitHigh (h : l.Sound c) (hl : l.lstate = .wWaitHigh) (hsetup : 0 < c.tSetup) :
    Link.Sound c { l with
      pads := { l.pads with datOe := true, datO := l.bitAt 0 }, dly := 0#16, lstate := .wSetup } :=
  { h with
    pads := by simp [Link.padsOf, Link.bitAt, h.pads, hl, h.firstBit (.inr hl)]
    spent := fun _ => hsetup
    dly := h.dly_zero
    inFlight := fun _ => h.inFlight (by simp [hl])
    bitToSend := fun _ => h.bitToSend (by simp [hl, LState.isWrite])
    firstBit := nofun
    capacity := nofun }

theorem leaveSetup (h : l.Sound c) (hl : l.lstate = .wSetup) (hhigh : 0 < c.tHigh) :
    Link.Sound c { l with pads := { l.pads with clkO := true }, dly := 0#16, lstate := .wHigh } :=
  { h with
    pads := by simp [Link.padsOf, Link.bitAt, h.pads, hl]
    spent := fun _ => hhigh
    dly := h.dly_zero
    inFlight := fun _ => h.inFlight (by simp [hl])
    bitToSend := fun _ => h.bitToSend (by simp [hl, LState.isWrite])
    firstBit := nofun
    capacity := nofun }

theorem nextBit (h : l.Sound c) (hl : l.lstate = .wHigh) (hsetup : 0 < c.tSetup) (hp : l.p + 1 < l.wseq.length) :
    Link.Sound c { l with
      p := l.p + 1
      pads := { l.pads with clkO := false, datO := l.bitAt (l.p + 1) }
      dly := 0#16, lstate := .wSetup } :=
  { h with
    pads := by simp [Link.padsOf, Link.bitAt, h.pads, hl]
    spent := fun _ => hsetup
    dly := h.dly_zero
    inFlight := fun _ => h.inFlight (by simp [hl])
    bitToSend := fun _ => hp
    firstBit := nofun
    capacity := nofun }

theorem leaveWaitReq (h : l.Sound c) (hl : l.lstate = .rWaitReq) (hready : 0 < c.tReady) :
    Link.Sound c { l with pads := { l.pads with datOe := true, datO := false }, dly := 0#16, lstate := .rReady } :=
  { h with
    pads := by simp [Link.padsOf, Pads.released, h.pads, hl]
    spent := fun _ => hready
    dly := h.dly_zero
    inFlight := fun _ => h.inFlight (by simp [hl])
    bitToSend := nofun
    firstBit := nofun
    capacity := fun _ => h.capacity (by simp [hl, LState.isRead]) }

theorem leaveReady (h : l.Sound c) (hl : l.lstate = .rReady) :
    Link.Sound c { l with
      pads := { l.pads with datOe := false, datO := false }, tmo := 0#16, lstate := .rWaitHigh } :=
  { h with
    pads := by simp [Link.padsOf, Pads.released, h.pads, hl]
    spent := fun _ => h.timeout_pos
    tmo := h.timeout_pos
    inFlight := fun _ => h.inFlight (by simp [hl])
    bitToSend := nofun
    firstBit := nofun
    capacity := fun _ => h.capacity (by simp [hl, LState.isRead]) }

theorem leaveClockHigh (h : l.Sound c) (hl : l.lstate = .rWaitLow) :
    Link.Sound c { l with tmo := 0#16, lstate := .rWaitHigh } :=
  { h with
    pads := by simp [Link.padsOf, h.pads, hl]
    spent := fun _ => h.timeout_pos
    tmo := h.timeout_pos
    inFlight := fun _ => h.inFlight (by simp [hl])
    bitToSend := nofun
    firstBit := nofun
    capacity := fun _ => h.capacity (by simp [hl, LState.isRead]) }

theorem awaitClockLow (h : l.Sound c) (hl : l.lstate = .rWaitHigh) :
    Link.Sound c { l with tmo := 0#16, lstate := .rWaitLow } :=
  { h with
    pads := by simp [Link.padsOf, h.pads, hl]
    spent := fun _ => h.timeout_pos
    tmo := h.timeout_pos
    inFlight := fun _ => h.inFlight (by simp [hl])
    bitToSend := nofun
    firstBit := nofun
    capacity := fun _ => h.capacity (by simp [hl, LState.isRead]) }

/-- Destuffing counts ones and fills a byte; nothing else of the link unit depends on them. -/
theorem withReader (h : l.Sound c) (n : Byte) (bits : BitVec 3) (sr : Byte) {ones : BitVec 3} (hones : ones.toNat ≤ 5)
    (tail : Bool) :
    Link.Sound c { l with rCount := n, rNbits := bits, rSr := sr, rOnes := ones, rTail := tail } :=
  { h with pads := h.pads, ones := hones }

end Link.Sound

/-! The link state machine. -/

/-- The run of ones grows below 5 alone (R187). -/
theorem State.destuff_ones {x : Bool} {s : State} (h : s.link.rOnes.toNat ≤ 5) :
    (s.destuff x).1.link.rOnes.toNat ≤ 5 := by
  unfold State.destuff
  split
  · split <;> exact h
  · split
    next hfive => split <;> simp [hfive]
    next hfive =>
      rw [State.takeBit_rOnes]
      have hne : s.link.rOnes.toNat ≠ 5 := fun e => hfive (BitVec.eq_of_toNat_eq e)
      split
      · bv_omega
      · simp

theorem State.destuff_code {x : Bool} {s t : State} {e : Result} (h : s.destuff x = (t, some e)) : e ≠ .other := by
  unfold State.destuff at h
  split at h
  next =>
    split at h
    next =>
      cases h
      simp
    next =>
      cases h
      split <;> simp
  next =>
    split at h
    next => split at h <;> cases h
    next => cases h

theorem State.destuff_sound {x : Bool} {s : State} (h : s.link.Sound s.cfg) : (s.destuff x).1.link.Sound s.cfg := by
  rw [(State.destuff_frame x s).2.2]
  exact h.withReader _ _ _ (State.destuff_ones h.ones) _

theorem State.sampleBit_sound {s : State} (h : s.link.Sound s.cfg) (hl : s.link.lstate = .rWaitHigh) :
    s.sampleBit.link.Sound s.cfg := by
  have hsound := State.destuff_sound (x := s.datIn) h
  have hstate : (s.destuff s.datIn).1.link.lstate = .rWaitHigh := by
    rw [(State.destuff_frame s.datIn s).2.2]
    exact hl
  rcases State.sampleBit_cases s with ⟨t, e, hd, hs⟩ | ⟨t, hd, hs⟩ <;> rw [hs] <;> rw [hd] at hsound hstate
  · rw [State.completeRead_link]
    exact hsound.ended (State.destuff_code hd) _
  · exact hsound.awaitClockLow hstate

theorem State.leaveHigh_sound {s : State} (h : s.link.Sound s.cfg) (hl : s.link.lstate = .wHigh)
    (hsetup : 0 < s.cfg.tSetup) : s.leaveHigh.link.Sound s.cfg := by
  rcases State.leaveHigh_cases s with ⟨hp, e⟩ | ⟨-, e⟩ <;> rw [e]
  · exact h.nextBit hl hsetup hp
  · exact h.ended (r := .ok) nofun _

theorem State.boundedWait_sound {cond : Bool} {leave : State → State} {s : State} (h : s.link.Sound s.cfg)
    (hmax : s.cfg.timeout ≤ 65536) (hleave : (leave s).link.Sound s.cfg) :
    (s.boundedWait cond leave).link.Sound s.cfg := by
  rcases State.boundedWait_cases cond leave s with ⟨-, e⟩ | ⟨-, -, e⟩ | ⟨-, hpoll, e⟩ <;> rw [e]
  · exact hleave
  · rw [State.failTimeout_link]
    exact h.ended (r := .timeout) nofun _
  · exact h.countPoll hmax hpoll

theorem State.fixedPhase_sound {n : Nat} {leave : State → State} {s : State} (h : s.link.Sound s.cfg)
    (hn : n ≤ max (max s.cfg.tSetup s.cfg.tHigh) s.cfg.tReady) (hmax : n ≤ 65536)
    (hphase : s.link.lstate.budget s.cfg = n) (hbusy : s.link.lstate ≠ .idle)
    (hspent : ∀ v, Link.spent { s.link with dly := v } = v.toNat) (hleave : (leave s).link.Sound s.cfg) :
    (s.fixedPhase n leave).link.Sound s.cfg := by
  rcases State.fixedPhase_cases n leave s with ⟨-, e⟩ | ⟨hlast, e⟩ <;> rw [e]
  · exact hleave
  · exact h.countCycle hn hmax hlast hphase hbusy hspent

/-- A cycle of the link state machine keeps the link unit's invariants, in every link state. -/
theorem State.linkTick_sound {s : State} (hrange : s.cfg.inRange = true) (h : s.link.Sound s.cfg) :
    s.linkTick.link.Sound s.cfg := by
  obtain ⟨⟨-, htimeout⟩, ⟨hsetup, hsetup'⟩, ⟨hhigh, hhigh'⟩, ⟨hready, hready'⟩, -⟩ := Config.ranges hrange
  cases hl : s.link.lstate with
  | idle => rwa [State.linkTick_idle hl]
  | wWaitLow =>
    rw [State.linkTick_wWaitLow hl]
    exact State.boundedWait_sound h htimeout (h.leaveWaitLow hl)
  | wWaitHigh =>
    rw [State.linkTick_wWaitHigh hl]
    exact State.boundedWait_sound h htimeout (h.leaveWaitHigh hl hsetup)
  | wSetup =>
    rw [State.linkTick_wSetup hl]
    exact State.fixedPhase_sound h (by simp) hsetup' (by simp [hl, LState.budget]) (by simp [hl])
      (by simp [hl, Link.spent]) (h.leaveSetup hl hhigh)
  | wHigh =>
    rw [State.linkTick_wHigh hl]
    exact State.fixedPhase_sound h (by simp) hhigh' (by simp [hl, LState.budget]) (by simp [hl])
      (by simp [hl, Link.spent]) (State.leaveHigh_sound h hl hsetup)
  | rWaitReq =>
    rw [State.linkTick_rWaitReq hl]
    exact State.boundedWait_sound h htimeout (h.leaveWaitReq hl hready)
  | rReady =>
    rw [State.linkTick_rReady hl]
    exact State.fixedPhase_sound h (by simp) hready' (by simp [hl, LState.budget]) (by simp [hl])
      (by simp [hl, Link.spent]) (h.leaveReady hl)
  | rWaitHigh =>
    rw [State.linkTick_rWaitHigh hl]
    exact State.boundedWait_sound h htimeout (State.sampleBit_sound h hl)
  | rWaitLow =>
    rw [State.linkTick_rWaitLow hl]
    exact State.boundedWait_sound h htimeout (h.leaveClockHigh hl)

end Sys2Proof.Machine
end

section
/-! SUPPORT. The state after reset is sound, and every step from a sound state answers one. -/

namespace Sys2Proof.Machine

/-! Bounds: what layer memory and the buffers may hold. -/

/-- `WithinBounds` for layer memory alone, with R34's bound on its counts. -/
structure LayerMem.Within (c : Config) (m : LayerMem) : Prop where
  chord : ∀ layer index, chordOk c layer index = false → m.chord layer index = 0#32
  count : ∀ layer, layerOk c layer = false → m.count layer = 0#8
  mod : ∀ layer bit, layerOk c layer = false → m.mod layer bit = 0#8
  countLe : ∀ layer, (m.count layer).toNat ≤ c.maxChords

/-- Every byte of a buffer at or above `n` reads 0 (R45). -/
def Memory.Below (n : Nat) (m : Memory 8) : Prop := ∀ i, n ≤ i → Memory.read m i = 0#8

theorem Memory.Below.write {n i : Nat} {m : Memory 8} (h : Memory.Below n m) (hi : i < n) (b : Byte) :
    Memory.Below n (Memory.write m i b) := fun j hj => by
  rw [Memory.read_write_ne m b (by omega)]
  exact h j hj

theorem Memory.Below.storeWord {n : Nat} {m : Memory 8} (h : Memory.Below n m) (k : Nat) (v : Word) :
    Memory.Below n (storeWord n m k v) := fun j hj => by
  rw [read_storeWord, if_neg (by omega)]
  exact h j hj

theorem LayerMem.Edit.within {c : Config} {m n : LayerMem} (h : m.Edit c n) (hm : m.Within c) : n.Within c := by
  cases h with
  | keep => exact hm
  | chord v hok =>
    refine { hm with chord := fun l i hl => ?_ }
    rw [LayerMem.chord_setChord, if_neg (by rintro ⟨rfl, rfl⟩; simp [hok] at hl)]
    exact hm.chord l i hl
  | @count layer n hok =>
    obtain ⟨hlayer, hn⟩ : layerOk c layer = true ∧ n.toNat ≤ c.maxChords := by simpa [countOk] using hok
    refine { hm with count := fun l hl => ?_, countLe := fun l => ?_ } <;> rw [LayerMem.count_setCount]
    · rw [if_neg (by rintro rfl; simp [hlayer] at hl)]
      exact hm.count l hl
    · split
      · exact hn
      · exact hm.countLe l
  | mod b v hok =>
    refine { hm with mod := fun l i hl => ?_ }
    rw [LayerMem.mod_setMod, if_neg (by rintro ⟨rfl, rfl⟩; simp [hok] at hl)]
    exact hm.mod l i hl

/-! The engine. -/

theorem pressEdges_and_releaseEdges (new old : Mask) : pressEdges new old &&& releaseEdges new old = 0#16 := by
  apply BitVec.eq_of_getLsbD_eq
  intro k hk
  simp only [pressEdges, releaseEdges, BitVec.getLsbD_and, BitVec.getLsbD_not]
  cases new.getLsbD k <;> simp

/-- Nothing fired and no index without a match (R30). -/
def Results.Consistent (r : Results) : Prop := r.matched = false → r.fired = false ∧ r.matchIdx = 0#8

theorem Results.Update.consistent {r q : Results} (h : r.Update q) (hr : r.Consistent) : q.Consistent := by
  cases h with
  | keep => exact hr
  | jpRet jp => exact hr
  | trig b => exact hr
  | noMatch jp => exact fun _ => ⟨rfl, rfl⟩
  | hit jp fired i => exact nofun

/-! The invariant, part by part. -/

/-- `State.Inv` by the parts of the state: one fact for each, so that an operation on one part keeps the others'. -/
structure State.Parts (s : State) : Prop where
  inRange : s.cfg.inRange = true
  wf : s.memoryWf = true
  layers : s.layers.Within s.cfg
  txBuf : Memory.Below s.cfg.linkBuf s.txBuf
  rxBuf : Memory.Below s.cfg.linkBuf s.rxBuf
  edges : s.tracker.justPressed &&& s.tracker.justReleased = 0#16
  activeLayer : s.kh.activeLayer.toNat < s.cfg.nLayers
  res : s.res.Consistent
  link : s.link.Sound s.cfg
  clkSync : s.sync.clk.length = s.cfg.syncStages
  datSync : s.sync.dat.length = s.cfg.syncStages

theorem State.inv_iff_parts (s : State) : s.Inv ↔ s.Parts := by
  constructor
  · rintro ⟨hrange, hwf, ⟨hchord, hcount, hmod, htx, hrx⟩, ⟨hedges, hactive, hle, hres⟩, hlink⟩
    obtain ⟨hsound, hclk, hdat⟩ := s.linkInv_iff.mp hlink
    exact ⟨hrange, hwf, ⟨hchord, hcount, hmod, hle⟩, htx, hrx, hedges, hactive, hres, hsound, hclk, hdat⟩
  · rintro ⟨hrange, hwf, ⟨hchord, hcount, hmod, hle⟩, htx, hrx, hedges, hactive, hres, hsound, hclk, hdat⟩
    exact ⟨hrange, hwf, ⟨hchord, hcount, hmod, htx, hrx⟩, ⟨hedges, hactive, hle, hres⟩,
      s.linkInv_iff.mpr ⟨hsound, hclk, hdat⟩⟩

theorem Link.sound_reset {c : Config} (h : c.inRange = true) : Link.reset.Sound c := by
  obtain ⟨⟨htimeout, -⟩, ⟨hsetup, -⟩, -⟩ := Config.ranges h
  exact
    { pads := rfl
      spent := fun hbusy => absurd rfl hbusy
      tmo := htimeout
      dly := lt_of_lt_of_le hsetup (by simp)
      inFlight := fun hbusy => absurd rfl hbusy
      result := nofun
      bitToSend := nofun
      firstBit := nofun
      capacity := nofun
      ones := Nat.zero_le _ }

theorem State.parts_resetWith {c : Config} (h : c.inRange = true) : (State.resetWith c).Parts where
  inRange := h
  wf := rfl
  layers := ⟨fun _ _ _ => rfl, fun _ _ => rfl, fun _ _ _ => rfl, fun _ => Nat.zero_le _⟩
  txBuf _ _ := rfl
  rxBuf _ _ := rfl
  edges := BitVec.zero_and
  activeLayer := (Config.ranges h).2.2.2.2
  res _ := ⟨rfl, rfl⟩
  link := Link.sound_reset h
  clkSync := List.length_replicate
  datSync := List.length_replicate

theorem State.AccessEffect.parts {s t : State} (h : s.AccessEffect t) (hs : s.Parts) : t.Parts where
  inRange := h.cfg ▸ hs.inRange
  wf := h.memoryWf hs.wf
  layers := h.cfg ▸ h.layers.within hs.layers
  txBuf := by
    rcases h.txBuf with e | ⟨k, v, e⟩ <;> rw [h.cfg, e]
    · exact hs.txBuf
    · exact hs.txBuf.storeWord k v
  rxBuf := by
    rw [h.cfg, h.rxBuf]
    exact hs.rxBuf
  edges := by
    rcases h.tracker with e | ⟨new, e⟩ <;> rw [e]
    · exact hs.edges
    · exact pressEdges_and_releaseEdges new s.tracker.state
  activeLayer := by
    rw [h.cfg]
    rcases h.activeLayer with e | hok
    · exact e ▸ hs.activeLayer
    · exact of_decide_eq_true hok
  res := h.res.consistent hs.res
  link := h.cfg ▸ hs.link.of_begin h.link
  clkSync := by rw [h.sync, h.cfg, hs.clkSync]
  datSync := by rw [h.sync, h.cfg, hs.datSync]

theorem State.below_linkTick {s : State} (hs : s.Parts) : Memory.Below s.cfg.linkBuf s.linkTick.rxBuf := by
  rcases State.rxStored_linkTick s with e | ⟨hl, e | ⟨i, b, hi, e⟩⟩ <;> rw [e]
  · exact hs.rxBuf
  · exact hs.rxBuf
  · exact hs.rxBuf.write (lt_of_lt_of_le hi (hs.link.capacity (by rw [hl]; rfl))) b

theorem State.Parts.linkTick {s : State} (hs : s.Parts) : s.linkTick.Parts := by
  have hf := State.linkOnly_linkTick s
  exact
    { inRange := hf.cfg ▸ hs.inRange
      wf := State.memoryWf_linkTick hs.wf
      layers := by rw [hf.cfg, hf.layers]; exact hs.layers
      txBuf := by rw [hf.cfg, hf.txBuf]; exact hs.txBuf
      rxBuf := by rw [hf.cfg]; exact State.below_linkTick hs
      edges := by rw [hf.tracker]; exact hs.edges
      activeLayer := by rw [hf.cfg, hf.kh]; exact hs.activeLayer
      res := by rw [hf.res]; exact hs.res
      link := by rw [hf.cfg]; exact State.linkTick_sound hs.inRange hs.link
      clkSync := by rw [hf.cfg, hf.sync]; exact hs.clkSync
      datSync := by rw [hf.cfg, hf.sync]; exact hs.datSync }

theorem length_shiftStages {n : Nat} {stages : List Bool} (level : Bool) (h : stages.length = n) :
    (shiftStages n level stages).length = n := by
  simp [shiftStages, h]

theorem State.Parts.shiftSync {s : State} (hs : s.Parts) (lv : Levels) : (s.shiftSync lv).Parts :=
  { hs with
    clkSync := length_shiftStages lv.clk hs.clkSync
    datSync := length_shiftStages lv.dat hs.datSync }

theorem step_keeps_parts {s t : State} (hs : s.Parts) (h : step s = .next t) : t.Parts :=
  step_keeps (P := State.Parts)
    (fun _ _ hu => { State.parts_resetWith hu.inRange with })
    (fun _ _ _ hu => { hu with })
    (fun _ _ heff hu => heff.parts hu)
    (fun _ hu => hu.linkTick)
    (fun _ lv hu => hu.shiftSync lv) hs h

/-- The parameters are no state (R48, log 2). -/
theorem step_cfg {s t : State} (h : step s = .next t) : t.cfg = s.cfg :=
  step_keeps (P := fun u => u.cfg = s.cfg)
    (fun _ _ hu => hu)
    (fun _ _ _ hu => hu)
    (fun _ _ heff hu => heff.cfg.trans hu)
    (fun u hu => (State.linkOnly_linkTick u).cfg.trans hu)
    (fun _ _ hu => hu) rfl h

/-- Settles O57: each part of the invariant holds of the reset values. -/
theorem resetIsSound : Obligations.ResetIsSound :=
  fun c h => (State.resetWith c).inv_iff_parts.mpr (State.parts_resetWith h)

/-- Settles O59: each part of a cycle keeps each part of the invariant. -/
theorem stepKeepsSoundness : Obligations.StepKeepsSoundness :=
  fun s t hs h => ⟨t.inv_iff_parts.mpr (step_keeps_parts (s.inv_iff_parts.mp hs) h), step_cfg h⟩

end Sys2Proof.Machine
end

section
/-! SUPPORT. The cycle of a reset (R260) and the cycle of a command (R64), each as one step. -/

namespace Sys2Proof.Machine

theorem step_of_inRange {s : State} (h : s.cfg.inRange = true) : step s = s.cycle := if_pos h

/-- A step with `rst = 1` (R260). -/
theorem step_reset {s : State} (hrange : s.cfg.inRange = true) (hrst : s.nextInput.rst = true) :
    step s = .next ((s.resolveWires s.nextInput.peer).resetCycle s.nextInput) := by
  rw [step_of_inRange hrange, State.cycle, State.clockCycle, if_pos hrst]

/-- A step without reset: the host access between the beginning and the end of the cycle. -/
theorem step_access {s : State} (hrange : s.cfg.inRange = true) (hrst : s.nextInput.rst = false) :
    step s = onNext (((s.resolveWires s.nextInput.peer).beginCycle s.nextInput).hostAccess s.nextInput.bus)
      (State.endCycle s.nextInput (wireLevels s.link.pads s.nextInput.peer s.env.draws) s.key.firePending s.busy) := by
  rw [step_of_inRange hrange, State.cycle, State.clockCycle, if_neg (by simp [hrst])]
  rfl

theorem State.nextInput_of_inputs {s : State} {inp : CycleIn} {rest : List CycleIn} (h : s.env.inputs = inp :: rest) :
    s.nextInput = inp := by
  rw [State.nextInput, h, List.headD_cons]

/-- Address bits `[1:0]` aside, offset 0 is CMD (R62, R63). -/
theorem Reg.ofAddr_cmd {a : Addr} (h : a &&& 0xFFC#12 = 0#12) : Reg.ofAddr a = .cmd := by
  simp [Reg.ofAddr, h]

/-- A write of a decoding word to CMD executes its command, after CMD_LAST has taken the word (R64). -/
theorem State.hostWrite_cmd {a : Addr} {v : Word} {i : Instr} (ha : a &&& 0xFFC#12 = 0#12) (hv : decode v = .ok i)
    (s : State) : s.hostWrite a v = exec i (s.withCmdLast v) := by
  simp [State.hostWrite, Reg.ofAddr_cmd ha, State.issueCommand, hv]

theorem tableWord_toNat (v : Word) : tableWord 32 v.toNat = v := by
  rw [tableWord, Nat.mod_eq_of_lt v.isLt, BitVec.ofNat_toNat, BitVec.setWidth_eq]

/-- Settles O8: a reset cycle answers R49's values, from every state and with every host access. -/
theorem resetGivesTheTable : Obligations.ResetGivesTheTable := by
  intro s hrange hrst
  exact ⟨_, step_reset hrange hrst, rfl, rfl, rfl, rfl, rfl, rfl, rfl, rfl, rfl,
    fun _ _ => rfl, fun _ => rfl, fun _ _ => rfl,
    rfl, rfl, rfl, rfl, rfl, rfl, rfl, rfl, rfl, rfl, rfl, rfl, rfl, rfl, rfl, rfl, rfl,
    fun _ => rfl, fun _ => rfl⟩

/-- Settles O6: the access of the cycle is the write to CMD, which executes the decoded command. -/
theorem stepRunsTheDecodedCommand : Obligations.StepRunsTheDecodedCommand := by
  refine ⟨fun s inp rest a v i hrange hinputs hrst hbus ha hv => ?_, fun s v => ?_⟩
  · have hnext : s.nextInput = inp := State.nextInput_of_inputs hinputs
    rw [step_access hrange (by rw [hnext, hrst]), hnext, hbus]
    exact congrArg (onNext · _) (State.hostWrite_cmd ha hv _)
  · rw [State.withFetchWord, tableWord_toNat]
    rfl

end Sys2Proof.Machine
end

section
/-! SUPPORT. The fields of the status registers (R65, R67, R68, R72, R73, R74). -/

namespace Sys2Proof.Machine

@[simp] theorem getLsbD_oneBit (b : Bool) : (oneBit b).getLsbD 0 = b := by simp [oneBit]

/-! A field is the part of the concatenation that stands at its bits. -/

theorem State.cmdResp_fields (s : State) :
    (s.readReg .cmdResp).extractLsb' 0 4 = s.host.cmdResp.code ∧ (s.readReg .cmdResp).extractLsb' 4 28 = 0#28 := by
  simp (disch := decide) only [State.readReg, BitVec.extractLsb'_append_eq_of_add_le,
    BitVec.extractLsb'_append_eq_of_le, BitVec.extractLsb'_eq_self, Nat.reduceSub, and_self]

theorem State.linkStatus_fields (s : State) :
    s.linkStatus.getLsbD 0 = s.busy ∧ s.linkStatus.extractLsb' 1 3 = 0#3 ∧
    s.linkStatus.extractLsb' 4 4 = s.link.result.code ∧ s.linkStatus.extractLsb' 8 8 = s.link.count ∧
    s.linkStatus.extractLsb' 16 4 = s.link.lstate.code ∧ s.linkStatus.extractLsb' 20 12 = 0#12 := by
  simp (disch := decide) only [State.linkStatus, BitVec.getLsbD_append, BitVec.extractLsb'_append_eq_of_add_le,
    BitVec.extractLsb'_append_eq_of_le, BitVec.extractLsb'_eq_self, getLsbD_oneBit, Nat.reduceSub, Nat.reduceLT,
    if_true, and_self]

theorem State.lineState_fields (s : State) :
    s.lineState.getLsbD 0 = s.clkIn ∧ s.lineState.getLsbD 1 = s.datIn ∧
    s.lineState.getLsbD 2 = s.link.pads.clkOe ∧ s.lineState.getLsbD 3 = s.link.pads.clkO ∧
    s.lineState.getLsbD 4 = s.link.pads.datOe ∧ s.lineState.getLsbD 5 = s.link.pads.datO ∧
    s.lineState.extractLsb' 6 26 = 0#26 := by
  simp (disch := decide) only [State.lineState, BitVec.getLsbD_append, BitVec.extractLsb'_append_eq_of_le,
    BitVec.extractLsb'_eq_self, getLsbD_oneBit, Nat.reduceSub, Nat.reduceLT, if_true, if_false, and_self]

theorem State.khStatus_fields (s : State) :
    s.khStatus.getLsbD 0 = s.kh.shouldTrigger ∧ s.khStatus.extractLsb' 1 7 = 0#7 ∧
    s.khStatus.extractLsb' 8 8 = s.kh.activeLayer ∧ s.khStatus.extractLsb' 16 8 = s.kh.modifier ∧
    s.khStatus.extractLsb' 24 8 = 0#8 := by
  simp (disch := decide) only [State.khStatus, BitVec.getLsbD_append, BitVec.extractLsb'_append_eq_of_add_le,
    BitVec.extractLsb'_append_eq_of_le, BitVec.extractLsb'_eq_self, getLsbD_oneBit, Nat.reduceSub, Nat.reduceLT,
    if_true, and_self]

theorem State.keyOutWord_fields (s : State) :
    s.keyOutWord.extractLsb' 0 8 = s.key.keyCode ∧ s.keyOutWord.extractLsb' 8 8 = s.key.keyMod ∧
    s.keyOutWord.extractLsb' 16 8 = s.key.fireCount ∧ s.keyOutWord.getLsbD 24 = s.key.sinkErr ∧
    s.keyOutWord.extractLsb' 25 7 = 0#7 := by
  simp (disch := decide) only [State.keyOutWord, BitVec.getLsbD_append, BitVec.extractLsb'_append_eq_of_add_le,
    BitVec.extractLsb'_append_eq_of_le, BitVec.extractLsb'_eq_self, getLsbD_oneBit, Nat.reduceSub, Nat.reduceLT,
    if_true, if_false, and_self]

theorem State.engineResult_fields (s : State) :
    s.engineResult.extractLsb' 0 16 = s.res.jpRet ∧ s.engineResult.getLsbD 16 = s.res.trig ∧
    s.engineResult.getLsbD 17 = s.res.matched ∧ s.engineResult.getLsbD 18 = s.res.fired ∧
    s.engineResult.extractLsb' 19 5 = 0#5 ∧ s.engineResult.extractLsb' 24 8 = s.res.matchIdx := by
  simp (disch := decide) only [State.engineResult, BitVec.getLsbD_append, BitVec.extractLsb'_append_eq_of_add_le,
    BitVec.extractLsb'_append_eq_of_le, BitVec.extractLsb'_eq_self, getLsbD_oneBit, Nat.reduceSub, Nat.reduceLT,
    if_true, if_false, and_self]

/-- Settles O15: each register's word, field by field; the codes are those of the tables. -/
theorem statusRegisterFields : Obligations.StatusRegisterFields := by
  intro s
  obtain ⟨r0, r4⟩ := s.cmdResp_fields
  obtain ⟨l0, l1, l4, l8, l16, l20⟩ := s.linkStatus_fields
  obtain ⟨w0, w1, w2, w3, w4, w5, w6⟩ := s.lineState_fields
  obtain ⟨h0, h1, h8, h16, h24⟩ := s.khStatus_fields
  obtain ⟨k0, k8, k16, k24, k25⟩ := s.keyOutWord_fields
  obtain ⟨e0, e16, e17, e18, e19, e24⟩ := s.engineResult_fields
  exact ⟨r0, r4, l0, l1, l4, l8, l16, l20, w0, w1, w2, w3, w4, w5, w6, h0, h1, h8, h16, h24, k0, k8, k16, k24, k25,
    e0, e16, e17, e18, e19, e24, rfl, rfl, rfl, rfl, rfl, rfl, rfl, rfl, rfl, rfl, rfl, rfl, rfl, rfl, rfl, rfl, rfl,
    rfl, rfl, rfl⟩

end Sys2Proof.Machine
end

section
/-! SUPPORT. The register window: the offsets at which a register stands (R63), reads after reset, and writes. -/

namespace Sys2Proof.Machine

/-! Which register stands at an offset. -/

/-- The register stands at the word offset `o` of the window (R63). -/
def Reg.At (o : Nat) : Reg → Prop
  | .cmd => o = 0x000
  | .cmdResp => o = 0x004
  | .arg0 => o = 0x008
  | .arg1 => o = 0x00C
  | .linkStatus => o = 0x010
  | .lineState => o = 0x014
  | .params => o = 0x018
  | .stState => o = 0x020
  | .stEdges => o = 0x024
  | .khStatus => o = 0x028
  | .keyOut => o = 0x02C
  | .engineResult => o = 0x030
  | .txWord k => k < 64 ∧ o = 0x100 + 4 * k
  | .rxWord k => k < 64 ∧ o = 0x200 + 4 * k
  | .reserved => o = 0x01C ∨ 0x034 ≤ o ∧ o < 0x100 ∨ 0x300 ≤ o

/-- An address selects the register that stands at its word offset (R62, R63). -/
theorem Reg.at_ofAddr (a : Addr) : (Reg.ofAddr a).At (a &&& 0xFFC#12).toNat := by
  have h4 := wordAddr_mod_four a
  rcases Reg.ofAddr_cases a _ rfl with ⟨ho, h⟩ | ⟨ho, h⟩ | ⟨ho, h⟩ | ⟨ho, h⟩ | ⟨ho, h⟩ | ⟨ho, h⟩ | ⟨ho, h⟩ | ⟨ho, h⟩ |
    ⟨ho, h⟩ | ⟨ho, h⟩ | ⟨ho, h⟩ | ⟨ho, h⟩ | ⟨hlo, hhi, h⟩ | ⟨hlo, hhi, h⟩ | ⟨ho, h⟩ <;> rw [h]
  iterate 12 exact ho
  · exact ⟨by omega, by omega⟩
  · exact ⟨by omega, by omega⟩
  · exact ho

theorem Reg.at_of_ofAddr {a : Addr} {r : Reg} (h : Reg.ofAddr a = r) : r.At (a &&& 0xFFC#12).toNat :=
  h ▸ Reg.at_ofAddr a

/-- Address bits `[1:0]` are ignored (R62). -/
theorem Reg.ofAddr_wordAddr (a : Addr) : Reg.ofAddr (a &&& 0xFFC#12) = Reg.ofAddr a := by
  rw [Reg.ofAddr, wordAddr_idem, Reg.ofAddr]

/-- The TX_BUF window holds the words of TX_BUF in order (R75). -/
theorem Reg.ofAddr_txWindow {a : Addr} (hlo : 0x100 ≤ (a &&& 0xFFC#12).toNat) (hhi : (a &&& 0xFFC#12).toNat < 0x200) :
    ∃ k, Reg.ofAddr a = .txWord k ∧ (a &&& 0xFFC#12).toNat = 0x100 + 4 * k := by
  have hat := Reg.at_ofAddr a
  cases hr : Reg.ofAddr a with
  | txWord k => exact ⟨k, rfl, (hr ▸ hat).2⟩
  | _ =>
    simp only [hr, Reg.At] at hat
    omega

/-- The RX_BUF window holds the words of RX_BUF in order (R76). -/
theorem Reg.ofAddr_rxWindow {a : Addr} (hlo : 0x200 ≤ (a &&& 0xFFC#12).toNat) (hhi : (a &&& 0xFFC#12).toNat < 0x300) :
    ∃ k, Reg.ofAddr a = .rxWord k ∧ (a &&& 0xFFC#12).toNat = 0x200 + 4 * k := by
  have hat := Reg.at_ofAddr a
  cases hr : Reg.ofAddr a with
  | rxWord k => exact ⟨k, rfl, (hr ▸ hat).2⟩
  | _ =>
    simp only [hr, Reg.At] at hat
    omega

/-- The offsets R79 lists are reserved. -/
theorem Reg.ofAddr_reserved {a : Addr}
    (h : (a &&& 0xFFC#12).toNat = 0x01C ∨
      (0x034 ≤ (a &&& 0xFFC#12).toNat ∧ (a &&& 0xFFC#12).toNat < 0x100) ∨ 0x300 ≤ (a &&& 0xFFC#12).toNat) :
    Reg.ofAddr a = .reserved := by
  have hat := Reg.at_ofAddr a
  cases hr : Reg.ofAddr a with
  | reserved => rfl
  | _ =>
    simp only [hr, Reg.At] at hat
    omega

/-! Writes. -/

theorem State.hostWrite_txWord {a : Addr} {k : Nat} (h : Reg.ofAddr a = .txWord k) (v : Word) (s : State) :
    s.hostWrite a v = .next (s.storeTx k v) := by
  rw [State.hostWrite, h]

/-- A write outside CMD, ARG0, ARG1 and the TX_BUF window is ignored (R79, R80). -/
theorem State.hostWrite_ignored {a : Addr} (hcmd : (a &&& 0xFFC#12).toNat ≠ 0x000)
    (harg0 : (a &&& 0xFFC#12).toNat ≠ 0x008) (harg1 : (a &&& 0xFFC#12).toNat ≠ 0x00C)
    (htx : ¬(0x100 ≤ (a &&& 0xFFC#12).toNat ∧ (a &&& 0xFFC#12).toNat < 0x200)) (v : Word) (s : State) :
    s.hostWrite a v = .next s := by
  have hat := Reg.at_ofAddr a
  rw [State.hostWrite]
  cases hr : Reg.ofAddr a with
  | cmd => exact absurd (Reg.at_of_ofAddr hr) hcmd
  | arg0 => exact absurd (Reg.at_of_ofAddr hr) harg0
  | arg1 => exact absurd (Reg.at_of_ofAddr hr) harg1
  | txWord k =>
    simp only [hr, Reg.At] at hat
    omega
  | _ => rfl

/-- Settles O11: the low bits select no register, and each register's arm answers what its rule says. -/
theorem reservedAndReadOnlyWords : Obligations.ReservedAndReadOnlyWords := by
  refine fun s a v => ⟨?_, ?_, fun h => State.hostRead_of (Reg.ofAddr_reserved h),
    fun hcmd harg0 harg1 htx => State.hostWrite_ignored hcmd harg0 harg1 htx v s⟩
  · rw [State.hostRead, State.hostRead, Reg.ofAddr_wordAddr]
  · rw [State.hostWrite, State.hostWrite, Reg.ofAddr_wordAddr]

/-- Settles O12: the word goes to its register alone, and the read selects that register. -/
theorem argumentRegistersHoldTheWord : Obligations.ArgumentRegistersHoldTheWord :=
  fun s v => ⟨⟨s.withArg0 v, rfl, rfl, rfl⟩, s.withArg1 v, rfl, rfl, rfl⟩

/-- Settles O13: the window's word `k` is stored by `storeTx`, whose bytes `read_storeWord` gives. -/
theorem txBufWritesStoreBytesUnlessBusy : Obligations.TxBufWritesStoreBytesUnlessBusy := by
  intro s a v o hlo hhi
  obtain ⟨k, hreg, ho⟩ := Reg.ofAddr_txWindow hlo hhi
  refine ⟨_, State.hostWrite_txWord hreg v s, fun hbusy => ?_, fun hidle => ?_⟩
  · rw [State.storeTx, if_pos hbusy]
  · have hbyte : o - 0x100 = 4 * k := by omega
    rw [State.storeTx_eq, hidle, hbyte]
    exact ⟨rfl, fun i => read_storeWord _ _ _ _ _⟩

/-! Reads. -/

/-- Settles O14: the window's word `k` holds bytes `4k .. 4k+3` of its buffer. -/
theorem bufferWindowsReadLittleEndian : Obligations.BufferWindowsReadLittleEndian := by
  refine fun s a j hj => ⟨fun hlo hhi => ?_, fun hlo hhi => ?_⟩
  · obtain ⟨k, hreg, ho⟩ := Reg.ofAddr_txWindow hlo hhi
    rw [State.hostRead_of hreg, ho, Nat.add_sub_cancel_left]
    exact bufferWord_byte _ _ k hj
  · obtain ⟨k, hreg, ho⟩ := Reg.ofAddr_rxWindow hlo hhi
    rw [State.hostRead_of hreg, ho, Nat.add_sub_cancel_left]
    exact bufferWord_byte _ _ k hj

/-- The fields of PARAMS (R69). -/
theorem paramsWord_fields (c : Config) :
    (paramsWord c).extractLsb' 0 8 = BitVec.ofNat 8 c.linkBuf ∧
    (paramsWord c).extractLsb' 8 8 = BitVec.ofNat 8 c.maxChords ∧
    (paramsWord c).extractLsb' 16 8 = BitVec.ofNat 8 c.nLayers ∧
    (paramsWord c).getLsbD 24 = (bitOrderBit c.bitOrder).getLsbD 0 ∧
    (paramsWord c).extractLsb' 25 3 = BitVec.ofNat 3 c.syncStages ∧ (paramsWord c).extractLsb' 28 4 = 1#4 := by
  simp (disch := decide) only [paramsWord, BitVec.getLsbD_append, BitVec.extractLsb'_append_eq_of_add_le,
    BitVec.extractLsb'_append_eq_of_le, BitVec.extractLsb'_eq_self, Nat.reduceSub, Nat.reduceLT, if_true, if_false,
    and_self]

theorem bitOrderBit_eq_true (o : BitOrder) : (bitOrderBit o).getLsbD 0 = true ↔ o = .lsbFirst := by
  cases o <;> decide

/-- The two halves of a register word (R70, R71). -/
theorem halves_append (hi lo : Mask) :
    (hi ++ lo : Word).extractLsb' 0 16 = lo ∧ (hi ++ lo : Word).extractLsb' 16 16 = hi := by
  simp (disch := decide) only [BitVec.extractLsb'_append_eq_of_add_le, BitVec.extractLsb'_append_eq_of_le,
    BitVec.extractLsb'_eq_self, Nat.reduceSub, and_self]

/-- Settles O16: the fields of PARAMS hold the parameters, which R8's ranges fit into their widths. -/
theorem parameterAndTrackerRegisterFields : Obligations.ParameterAndTrackerRegisterFields := by
  intro s hrange
  obtain ⟨-, -, -, -, ⟨-, hsync⟩, ⟨-, hbuf⟩, ⟨-, hlayers⟩, ⟨-, hchords⟩⟩ := of_decide_eq_true hrange
  obtain ⟨p0, p8, p16, p24, p25, p28⟩ := paramsWord_fields s.cfg
  obtain ⟨state, last⟩ := halves_append s.tracker.lastState s.tracker.state
  obtain ⟨pressed, released⟩ := halves_append s.tracker.justReleased s.tracker.justPressed
  have fits {w n : Nat} {f : BitVec w} (hf : f = BitVec.ofNat w n) (hn : n < 2 ^ w) : f.toNat = n := by
    rw [hf, BitVec.toNat_ofNat, Nat.mod_eq_of_lt hn]
  exact ⟨rfl, fits p0 (by omega), fits p8 (by omega), fits p16 (by omega),
    (Bool.eq_iff_iff.mp p24).trans (bitOrderBit_eq_true _), fits p25 (by omega), p28, state, last, pressed, released⟩

/-! Reads after reset. -/

theorem bufferWord_nil (n k : Nat) : bufferWord n [] k = 0#32 := by
  have hbyte (i : Nat) : bufferByte n [] i = 0#8 := ite_self _
  simp only [bufferWord, hbyte]
  rfl

/-- Every stage of both synchronisers is 1 after reset (R39). -/
theorem State.inputs_resetWith (c : Config) :
    (State.resetWith c).clkIn = true ∧ (State.resetWith c).datIn = true := by
  simp [State.clkIn, State.datIn, State.resetWith, Sync.reset]

theorem State.lineState_resetWith (c : Config) : (State.resetWith c).lineState = 0x3#32 := by
  obtain ⟨hclk, hdat⟩ := State.inputs_resetWith c
  have hpads : (State.resetWith c).link.pads = Pads.released := rfl
  simp [State.lineState, hclk, hdat, hpads, Pads.released, oneBit]

theorem State.linkStatus_resetWith (c : Config) : (State.resetWith c).linkStatus = 0x70#32 := by
  simp [State.linkStatus, State.busy, State.resetWith, Link.reset, LState.code, Result.code, oneBit]

/-- What every register but LINK_STATUS, LINE_STATE and PARAMS reads after reset. -/
theorem State.readReg_resetWith (c : Config) {r : Reg} (hs : r ≠ .linkStatus) (hl : r ≠ .lineState)
    (hp : r ≠ .params) : (State.resetWith c).readReg r = 0#32 := by
  cases r with
  | linkStatus => contradiction
  | lineState => contradiction
  | params => contradiction
  | txWord k => exact bufferWord_nil _ k
  | rxWord k => exact bufferWord_nil _ k
  | _ =>
    simp [State.readReg, State.khStatus, State.keyOutWord, State.engineResult, State.resetWith, HostRegs.reset,
      Tracker.reset, KeyHandler.reset, Results.reset, KeyOut.reset, Resp.code, oneBit]

/-- Settles O9: the three words that do not read 0 stand at their offsets alone. -/
theorem registerWindowAfterReset : Obligations.RegisterWindowAfterReset := by
  intro c a _
  split_ifs with hs hl hp
  · rw [State.hostRead, ← Reg.ofAddr_wordAddr, hs]
    exact State.linkStatus_resetWith c
  · rw [State.hostRead, ← Reg.ofAddr_wordAddr, hl]
    exact State.lineState_resetWith c
  · rw [State.hostRead, ← Reg.ofAddr_wordAddr, hp]
    rfl
  · exact State.readReg_resetWith c (fun h => hs (BitVec.eq_of_toNat_eq (Reg.at_of_ofAddr h)))
      (fun h => hl (BitVec.eq_of_toNat_eq (Reg.at_of_ofAddr h)))
      (fun h => hp (BitVec.eq_of_toNat_eq (Reg.at_of_ofAddr h)))

end Sys2Proof.Machine
end

section
/-! SUPPORT. The link state machine reads and writes a part of the state of its own: its cycle is the same whatever
stands beside that part. -/

namespace Sys2Proof.Machine

/-- The link's part of `s`, which is all that the link state machine reads and writes, beside the rest of `r`. -/
def State.beside (s r : State) : State :=
  { r with
    cfg := s.cfg, link := s.link, sync := s.sync, rxBuf := s.rxBuf
    env := { r.env with rereadWait := s.env.rereadWait } }

@[simp] theorem State.beside_cfg (s r : State) : (s.beside r).cfg = s.cfg := rfl
@[simp] theorem State.beside_link (s r : State) : (s.beside r).link = s.link := rfl
@[simp] theorem State.beside_datIn (s r : State) : (s.beside r).datIn = s.datIn := rfl

theorem State.beside_withLink (s r : State) (l : Link) : (s.beside r).withLink l = (s.withLink l).beside r := rfl

/-- Two states with the same link part. -/
theorem State.beside_eq_self {s r : State} (hcfg : r.cfg = s.cfg) (hlink : r.link = s.link) (hsync : r.sync = s.sync)
    (hrx : r.rxBuf = s.rxBuf) (hwait : r.env.rereadWait = s.env.rereadWait) : s.beside r = r := by
  rw [State.beside, ← hcfg, ← hlink, ← hsync, ← hrx, ← hwait]

/-! Each operation of the link state machine, beside any rest. The conditions of its branches are of the link's part. -/

theorem State.ite_beside (c : Prop) [Decidable c] (s t r : State) :
    (if c then s else t).beside r = if c then s.beside r else t.beside r :=
  apply_ite (State.beside · r) c s t

theorem State.byteDone_beside (b : Byte) (s r : State) : (s.beside r).byteDone b = (s.byteDone b).beside r := by
  by_cases hstore : s.link.rCount.toNat < s.link.rCap.toNat <;> by_cases hcount : s.link.rCount.toNat < 255 <;>
    simp only [State.byteDone, State.beside_link, hstore, hcount, if_true, if_false] <;> rfl

theorem State.takeBit_beside (x : Bool) (s r : State) : (s.beside r).takeBit x = (s.takeBit x).beside r := by
  by_cases h : s.link.rNbits = 7#3
  · rw [State.takeBit_of_eq h, State.takeBit_of_eq (s := s.beside r) h, State.beside_cfg, State.beside_link,
      State.beside_withLink, State.byteDone_beside]
    rfl
  · rw [State.takeBit_of_lt h, State.takeBit_of_lt (s := s.beside r) h]
    rfl

theorem State.destuff_beside (x : Bool) (s r : State) :
    (s.beside r).destuff x = ((s.destuff x).1.beside r, (s.destuff x).2) := by
  by_cases htail : s.link.rTail = true
  · cases x
    · simp only [State.destuff, State.beside_link, htail, if_true, if_false, Bool.false_eq_true]
      rfl
    · simp [State.destuff, htail]
  · by_cases hones : s.link.rOnes = 5#3
    · cases x <;> simp [State.destuff, htail, hones, State.beside_withLink]
    · simp [State.destuff, htail, hones, State.takeBit_beside]

theorem State.completeRead_beside (e : Result) (s r : State) :
    (s.beside r).completeRead e = (s.completeRead e).beside r := by
  rw [State.completeRead, State.completeRead, State.ite_beside]
  rfl

theorem State.failTimeout_beside (s r : State) : (s.beside r).failTimeout = s.failTimeout.beside r := by
  rw [State.failTimeout, State.failTimeout, State.ite_beside]
  rfl

theorem State.sampleBit_beside (s r : State) : (s.beside r).sampleBit = s.sampleBit.beside r := by
  rw [State.sampleBit, State.beside_datIn, State.destuff_beside, State.sampleBit]
  rcases s.destuff s.datIn with ⟨t, _ | e⟩
  · rfl
  · exact State.completeRead_beside e t r

theorem State.leaveHigh_beside (s r : State) : (s.beside r).leaveHigh = s.leaveHigh.beside r := by
  rw [State.leaveHigh, State.leaveHigh, State.ite_beside]
  rfl

theorem State.boundedWait_beside {cond : Bool} {leave : State → State} {s r : State}
    (h : leave (s.beside r) = (leave s).beside r) :
    (s.beside r).boundedWait cond leave = (s.boundedWait cond leave).beside r := by
  rw [State.boundedWait, State.boundedWait, State.ite_beside, State.ite_beside, h, State.failTimeout_beside]
  rfl

theorem State.fixedPhase_beside {n : Nat} {leave : State → State} {s r : State}
    (h : leave (s.beside r) = (leave s).beside r) :
    (s.beside r).fixedPhase n leave = (s.fixedPhase n leave).beside r := by
  rw [State.fixedPhase, State.fixedPhase, State.ite_beside, h]
  rfl

/-- A cycle of the link state machine takes the link's part to the same next one beside any rest, which it leaves as it
is (R140, R238). -/
theorem State.linkTick_beside (s r : State) : (s.beside r).linkTick = s.linkTick.beside r := by
  cases h : s.link.lstate with
  | idle => rw [State.linkTick_idle h, State.linkTick_idle (s := s.beside r) h]
  | wWaitLow =>
    rw [State.linkTick_wWaitLow h, State.linkTick_wWaitLow (s := s.beside r) h]
    exact State.boundedWait_beside rfl
  | wWaitHigh =>
    rw [State.linkTick_wWaitHigh h, State.linkTick_wWaitHigh (s := s.beside r) h]
    exact State.boundedWait_beside rfl
  | wSetup =>
    rw [State.linkTick_wSetup h, State.linkTick_wSetup (s := s.beside r) h]
    exact State.fixedPhase_beside rfl
  | wHigh =>
    rw [State.linkTick_wHigh h, State.linkTick_wHigh (s := s.beside r) h]
    exact State.fixedPhase_beside (State.leaveHigh_beside s r)
  | rWaitReq =>
    rw [State.linkTick_rWaitReq h, State.linkTick_rWaitReq (s := s.beside r) h]
    exact State.boundedWait_beside rfl
  | rReady =>
    rw [State.linkTick_rReady h, State.linkTick_rReady (s := s.beside r) h]
    exact State.fixedPhase_beside rfl
  | rWaitHigh =>
    rw [State.linkTick_rWaitHigh h, State.linkTick_rWaitHigh (s := s.beside r) h]
    exact State.boundedWait_beside (State.sampleBit_beside s r)
  | rWaitLow =>
    rw [State.linkTick_rWaitLow h, State.linkTick_rWaitLow (s := s.beside r) h]
    exact State.boundedWait_beside rfl

/-- The end of a cycle takes the link's part to the same next one beside any rest, whatever the host's access was. -/
theorem State.endCycle_beside (inp : CycleIn) (op : Option BusOp) (lv : Levels) (fire busy : Bool) (s r : State) :
    (s.beside r).endCycle { inp with bus := op } lv fire busy =
      (s.endCycle inp lv fire busy).beside (r.sampleSink fire inp.sinkErrIn).countDown := by
  have hside : ((s.beside r).sampleSink fire inp.sinkErrIn).countDown =
      (s.sampleSink fire inp.sinkErrIn).countDown.beside (r.sampleSink fire inp.sinkErrIn).countDown := by
    cases fire <;> rfl
  rw [State.endCycle_eq, State.endCycle_eq, hside]
  cases busy
  · rfl
  · exact congrArg (State.shiftSync lv) (State.linkTick_beside _ _)

/-- The end of a cycle changes beside the link's part what the sink port and the waits change. -/
theorem State.endCycle_eq_beside (inp : CycleIn) (lv : Levels) (fire busy : Bool) (s : State) :
    s.endCycle inp lv fire busy =
      (s.endCycle inp lv fire busy).beside (s.sampleSink fire inp.sinkErrIn).countDown :=
  State.endCycle_beside inp inp.bus lv fire busy s s

theorem State.endCycle_txBuf (inp : CycleIn) (lv : Levels) (fire busy : Bool) (s : State) :
    (s.endCycle inp lv fire busy).txBuf = s.txBuf := by
  rw [State.endCycle_eq_beside, State.sampleSink_eq]
  rfl

end Sys2Proof.Machine
end

section
/-! SUPPORT. What a host access leaves of the cycle it stands in: a read all but the bus word (R81), any access in a busy
cycle the link and both buffers (R77, R178, R238). -/

namespace Sys2Proof.Machine

/-! The cycle, up to the host access and from it on. -/

/-- The state that the host accesses in a cycle with the inputs `inp`: the wires are resolved and the cycle has begun. -/
def State.opened (inp : CycleIn) (s : State) : State :=
  ((s.withNextInput inp).resolveWires inp.peer).beginCycle inp

/-- A cycle without reset whose inputs are given. -/
theorem step_withNextInput {s : State} {inp : CycleIn} (hrange : s.cfg.inRange = true) (hrst : inp.rst = false) :
    step (s.withNextInput inp) = onNext ((s.opened inp).hostAccess inp.bus)
      (State.endCycle inp (wireLevels s.link.pads inp.peer s.env.draws) s.key.firePending s.busy) :=
  step_access (s := s.withNextInput inp) hrange hrst

/-- A cycle of a reset whose inputs are given. -/
theorem step_withNextInput_reset {s : State} {inp : CycleIn} (hrange : s.cfg.inRange = true) (hrst : inp.rst = true) :
    step (s.withNextInput inp) = .next (((s.withNextInput inp).resolveWires inp.peer).resetCycle inp) :=
  step_reset (s := s.withNextInput inp) hrange hrst

/-- With parameters outside R8's ranges no cycle is taken (R9, log 3). -/
theorem step_withNextInput_refused {s : State} (hrange : s.cfg.inRange = false) (inp : CycleIn) :
    step (s.withNextInput inp) = .refused .parameters :=
  if_neg (Bool.eq_false_iff.mp hrange)

/-! A host read. -/

/-- The state with another bus word (log 6). -/
def State.withBusData (w : Option Word) (s : State) : State := s.withEnv { s.env with busData := w }

/-- No rule of the end of a cycle reads the bus word or the access. -/
theorem State.endCycle_withBusData (inp : CycleIn) (op : Option BusOp) (lv : Levels) (fire busy : Bool)
    (w : Option Word) (s : State) :
    (s.withBusData w).endCycle { inp with bus := op } lv fire busy = (s.endCycle inp lv fire busy).withBusData w := by
  rw [State.endCycle_eq_beside inp lv fire busy s]
  refine (State.endCycle_beside inp op lv fire busy s (s.withBusData w)).trans ?_
  rw [State.sampleSink_eq, State.sampleSink_eq]
  rfl

/-- Settles O10: the read's word stands on the bus as the cycle begins, and nothing that follows reads it. -/
theorem hostReadsHaveNoSideEffect : Obligations.HostReadsHaveNoSideEffect := by
  intro s inp a
  rcases Bool.eq_false_or_eq_true s.cfg.inRange with hrange | hrange
  · rcases Bool.eq_false_or_eq_true inp.rst with hrst | hrst
    · rw [step_withNextInput_reset (inp := { inp with bus := some (.read a) }) hrange hrst,
        step_withNextInput_reset (inp := { inp with bus := none }) hrange hrst]
      rfl
    · rw [step_withNextInput (inp := { inp with bus := some (.read a) }) hrange hrst,
        step_withNextInput (inp := { inp with bus := none }) hrange hrst]
      exact congrArg Host.Outcome.next (State.endCycle_withBusData { inp with bus := none } _ _ _ _
        (some (s.hostRead a)) (s.opened { inp with bus := none }))
  · rw [step_withNextInput_refused hrange, step_withNextInput_refused hrange, onNext]

/-! A host access while BUSY. -/

/-- What every command leaves alone beside what `State.AccessEffect` says: TX_BUF, which a host write alone changes
(R77), and of the model's own fields all but the marks (logs 4 and 5). -/
structure State.CommandFrame (s t : State) : Prop where
  txBuf : t.txBuf = s.txBuf
  env : t.env = { s.env with marks := t.env.marks }

theorem State.CommandFrame.of_next {s t u : State} (h : (.next u : Host.Outcome State Fault Refusal) = .next t)
    (hu : s.CommandFrame u) :
    s.CommandFrame t :=
  Host.Outcome.next.inj h ▸ hu

theorem State.CommandFrame.of_checked {ok : Bool} {f : State → State} {s t : State} (h : s.checked ok f = .next t)
    (hf : s.CommandFrame (f s)) : s.CommandFrame t := by
  rcases State.checked_cases h with ⟨-, rfl⟩ | ⟨-, rfl⟩
  · exact { hf with }
  · exact ⟨rfl, rfl⟩

theorem State.CommandFrame.of_guarded {ok : Bool} {f : State → State} {s t : State} (h : s.guarded ok f = .next t)
    (hf : s.CommandFrame (f s)) : s.CommandFrame t := by
  rcases State.guarded_cases h with ⟨-, -, rfl⟩ | ⟨-, -, rfl⟩ | ⟨-, rfl⟩
  · exact { hf with }
  · exact ⟨rfl, rfl⟩
  · exact ⟨rfl, rfl⟩

theorem exec_frame {i : Instr} {s t : State} (h : exec i s = .next t) : s.CommandFrame t := by
  cases i with
  | nop => exact .of_next h ⟨rfl, rfl⟩
  | linkWrite len =>
    refine .of_guarded h ?_
    rw [State.acceptWrite_eq, State.markIf_eq]
    exact ⟨rfl, rfl⟩
  | linkRead cap =>
    refine .of_guarded h ?_
    rw [State.acceptRead, State.markIf_eq]
    exact ⟨rfl, rfl⟩
  | stUpdate l r => exact .of_next h ⟨rfl, rfl⟩
  | khUpdate l r =>
    obtain ⟨hkept, -⟩ := State.khStep_spec (combine l r) s
    exact .of_next h ⟨hkept.txBuf, by rw [State.respond_env, hkept.env]⟩
  | evalTriggers => exact .of_next h ⟨rfl, rfl⟩
  | setActiveLayer l => exact .of_checked h ⟨rfl, rfl⟩
  | chordWrite l i => exact .of_checked h ⟨rfl, rfl⟩
  | chordRead l i => exact .of_checked h ⟨rfl, rfl⟩
  | setChordCount l n => exact .of_checked h ⟨rfl, rfl⟩
  | modmapWrite l b m => exact .of_checked h ⟨rfl, rfl⟩
  | modmapRead l b => exact .of_checked h ⟨rfl, rfl⟩

/-- While BUSY the host cannot write TX_BUF (R77), and no access touches the wait of R270. -/
theorem State.hostAccess_frame_of_busy {op : Option BusOp} {s t : State} (hbusy : s.busy = true)
    (h : s.hostAccess op = .next t) : s.CommandFrame t := by
  rcases State.hostAccess_cases h with rfl | ⟨v, rfl⟩ | ⟨v, rfl⟩ | ⟨k, v, rfl⟩ | ⟨v, i, -, he⟩ | ⟨v, e, -, rfl⟩
  · exact ⟨rfl, rfl⟩
  · exact ⟨rfl, rfl⟩
  · exact ⟨rfl, rfl⟩
  · rw [State.storeTx, if_pos hbusy]
    exact ⟨rfl, rfl⟩
  · exact { exec_frame he with }
  · exact ⟨rfl, rfl⟩

/-- A busy link unit accepts no link command (R178). -/
theorem Link.Begin.eq_of_busy {c : Config} {l k : Link} (h : l.Begin c k) (hbusy : l.lstate ≠ .idle) : k = l := by
  cases h with
  | keep => rfl
  | write hidle _ => exact absurd hidle hbusy
  | alreadyWriting hidle => exact absurd hidle hbusy
  | read hidle _ => exact absurd hidle hbusy

/-- While BUSY no host access touches the link's part of the state (R178, R238). -/
theorem State.hostAccess_beside_of_busy {op : Option BusOp} {s t : State} (hbusy : s.busy = true)
    (h : s.hostAccess op = .next t) : s.beside t = t := by
  have heff := State.hostAccess_effect h
  have hlink : t.link = s.link := heff.link.eq_of_busy (by simpa [State.busy] using hbusy)
  exact State.beside_eq_self heff.cfg hlink heff.sync heff.rxBuf (by rw [(State.hostAccess_frame_of_busy hbusy h).env])

/-- Settles O49: in a busy cycle the access leaves the link's part and TX_BUF, and the cycle ends on those alone. -/
theorem busyTransactionIsUndisturbed : Obligations.BusyTransactionIsUndisturbed := by
  intro s t u inp hbusy ht hu
  obtain ⟨(hrange : s.cfg.inRange = true), -⟩ := step_cases ht
  rcases Bool.eq_false_or_eq_true inp.rst with hrst | hrst
  · rw [step_withNextInput_reset hrange hrst] at ht
    rw [step_withNextInput_reset (inp := { inp with bus := none }) hrange hrst] at hu
    cases ht
    cases hu
    exact ⟨rfl, rfl, rfl, rfl⟩
  · rw [step_withNextInput hrange hrst] at ht
    rw [step_withNextInput (inp := { inp with bus := none }) hrange hrst] at hu
    obtain ⟨v, hv, rfl⟩ := onNext_cases ht
    cases hu
    have hpart : (s.opened { inp with bus := none }).beside v = v :=
      State.hostAccess_beside_of_busy (s := s.opened inp) hbusy hv
    have htx : v.txBuf = s.txBuf := (State.hostAccess_frame_of_busy (s := s.opened inp) hbusy hv).txBuf
    have hend := State.endCycle_beside { inp with bus := none } inp.bus
      (wireLevels s.link.pads inp.peer s.env.draws) s.key.firePending s.busy (s.opened { inp with bus := none }) v
    rw [hpart] at hend
    refine ⟨(congrArg State.link hend :), (congrArg State.sync hend :), ?_, (congrArg State.rxBuf hend :)⟩
    rw [State.endCycle_txBuf, State.endCycle_txBuf, htx]
    rfl

end Sys2Proof.Machine
end

section
/-! SUPPORT. A command word as its four bytes (R90): the fields read them, and each command's word is one of the formats
F0, FN, FM, FLI and FLB over them (R91 to R95). -/

namespace Sys2Proof.Machine

/-- The word whose bytes are, from bit 31 down, `op`, `b2`, `b1` and `b0`. -/
def wordOfBytes (op b2 b1 b0 : Byte) : Word := op ++ b2 ++ b1 ++ b0

section
variable (op b2 b1 b0 : Byte)

@[simp] theorem opcodeField_wordOfBytes : opcodeField (wordOfBytes op b2 b1 b0) = op := by
  simp (disch := decide) only [opcodeField, wordOfBytes, BitVec.extractLsb'_append_eq_of_le,
    BitVec.extractLsb'_eq_self, Nat.reduceSub]

@[simp] theorem layerField_wordOfBytes : layerField (wordOfBytes op b2 b1 b0) = b2 := by
  simp (disch := decide) only [layerField, wordOfBytes, BitVec.extractLsb'_append_eq_of_le,
    BitVec.extractLsb'_append_eq_right, Nat.reduceSub]

@[simp] theorem leftField_wordOfBytes : leftField (wordOfBytes op b2 b1 b0) = b1 := by
  simp (disch := decide) only [leftField, wordOfBytes, BitVec.extractLsb'_append_eq_of_le,
    BitVec.extractLsb'_append_eq_right, Nat.reduceSub]

@[simp] theorem lowField_wordOfBytes : lowField (wordOfBytes op b2 b1 b0) = b0 := lowField_append _ b0

/-- BIT of FLB is the low half of the byte it stands in (R95). -/
@[simp] theorem bitField_wordOfBytes (bit : BitVec 4) : bitField (wordOfBytes op b2 (0#4 ++ bit) b0) = bit := by
  simp (disch := decide) only [bitField, wordOfBytes, BitVec.extractLsb'_append_eq_of_le,
    BitVec.extractLsb'_append_eq_of_add_le, BitVec.extractLsb'_eq_self, Nat.reduceSub]

end

/-- A word is its four bytes. -/
theorem wordOfBytes_fields (v : Word) : wordOfBytes (opcodeField v) (layerField v) (leftField v) (lowField v) = v := by
  have hhigh : opcodeField v ++ layerField v = v.extractLsb' 16 16 :=
    BitVec.extractLsb'_append_extractLsb'_eq_extractLsb' (by rfl)
  have hmid : v.extractLsb' 16 16 ++ leftField v = v.extractLsb' 8 24 :=
    BitVec.extractLsb'_append_extractLsb'_eq_extractLsb' (by rfl)
  have hlow : v.extractLsb' 8 24 ++ lowField v = v.extractLsb' 0 32 :=
    BitVec.extractLsb'_append_extractLsb'_eq_extractLsb' (by rfl)
  rw [wordOfBytes, hhigh, hmid, hlow, BitVec.extractLsb'_eq_self]

/-! The word of each command. -/

theorem encode_nop : encode .nop = wordOfBytes 0x00#8 0#8 0#8 0#8 := rfl

theorem encode_linkWrite (len : Byte) : encode (.linkWrite len) = wordOfBytes 0x01#8 0#8 0#8 len := rfl

theorem encode_linkRead (cap : Byte) : encode (.linkRead cap) = wordOfBytes 0x02#8 0#8 0#8 cap := rfl

theorem encode_stUpdate (left right : Byte) : encode (.stUpdate left right) = wordOfBytes 0x10#8 0#8 left right := rfl

theorem encode_khUpdate (left right : Byte) : encode (.khUpdate left right) = wordOfBytes 0x11#8 0#8 left right := rfl

theorem encode_evalTriggers : encode .evalTriggers = wordOfBytes 0x12#8 0#8 0#8 0#8 := rfl

theorem encode_setActiveLayer (layer : Byte) : encode (.setActiveLayer layer) = wordOfBytes 0x20#8 0#8 0#8 layer := rfl

theorem encode_chordWrite (layer index : Byte) :
    encode (.chordWrite layer index) = wordOfBytes 0x21#8 layer 0#8 index := rfl

theorem encode_chordRead (layer index : Byte) :
    encode (.chordRead layer index) = wordOfBytes 0x22#8 layer 0#8 index := rfl

theorem encode_setChordCount (layer count : Byte) :
    encode (.setChordCount layer count) = wordOfBytes 0x23#8 layer 0#8 count := rfl

theorem encode_modmapWrite (layer : Byte) (bit : BitVec 4) (mod : Byte) :
    encode (.modmapWrite layer bit mod) = wordOfBytes 0x24#8 layer (0#4 ++ bit) mod :=
  congrArg (fun b : BitVec 24 => (b ++ mod : Word)) BitVec.append_assoc

theorem encode_modmapRead (layer : Byte) (bit : BitVec 4) :
    encode (.modmapRead layer bit) = wordOfBytes 0x25#8 layer (0#4 ++ bit) 0#8 :=
  congrArg (fun b : BitVec 24 => (b ++ 0#8 : Word)) BitVec.append_assoc

end Sys2Proof.Machine
end

section
/-! SUPPORT. The decoder (R96 to R98), by the rows of the opcode map; the statements about encoding and decoding. -/

namespace Sys2Proof.Machine

/-! The rows of the opcode map. -/

/-- The assigned opcodes with their reserved masks (R97). -/
def reservedMasks : List (Byte × Word) :=
  [(0x00#8, 0x00FFFFFF#32), (0x01#8, 0x00FFFF00#32), (0x02#8, 0x00FFFF00#32), (0x10#8, 0x00FF0000#32),
    (0x11#8, 0x00FF0000#32), (0x12#8, 0x00FFFFFF#32), (0x20#8, 0x00FFFF00#32), (0x21#8, 0x0000FF00#32),
    (0x22#8, 0x0000FF00#32), (0x23#8, 0x0000FF00#32), (0x24#8, 0x0000F000#32), (0x25#8, 0x0000F0FF#32)]

theorem lookup_cons_ite (k a : Byte) (m : Word) (rows : List (Byte × Word)) :
    ((a, m) :: rows).lookup k = if k = a then some m else rows.lookup k := by
  by_cases h : k = a
  · rw [if_pos h, h, List.lookup_cons_self]
  · rw [if_neg h, List.lookup_cons, beq_eq_false_iff_ne.mpr h]

/-- The decoder's masks are those of the table. -/
theorem reservedMask_eq_lookup (op : Byte) : reservedMask op = reservedMasks.lookup op := by
  simp only [reservedMask, reservedMasks, lookup_cons_ite, List.lookup_nil]

theorem reservedMask_of_mem : ∀ row ∈ reservedMasks, reservedMask row.1 = some row.2 := by
  simp [reservedMasks, reservedMask]

theorem mem_of_reservedMask {op : Byte} {mask : Word} (h : reservedMask op = some mask) :
    (op, mask) ∈ reservedMasks := by
  rw [reservedMask_eq_lookup, List.lookup_eq_some_iff] at h
  obtain ⟨before, after, hsplit, -⟩ := h
  simp [hsplit]

/-- A row of R97's table, for the word `v`: its opcode, its reserved mask and the command it makes of `v`'s fields. -/
inductive OpcodeRow (v : Word) : Byte → Word → Instr → Prop
  | nop : OpcodeRow v 0x00#8 0x00FFFFFF#32 .nop
  | linkWrite : OpcodeRow v 0x01#8 0x00FFFF00#32 (.linkWrite (lowField v))
  | linkRead : OpcodeRow v 0x02#8 0x00FFFF00#32 (.linkRead (lowField v))
  | stUpdate : OpcodeRow v 0x10#8 0x00FF0000#32 (.stUpdate (leftField v) (lowField v))
  | khUpdate : OpcodeRow v 0x11#8 0x00FF0000#32 (.khUpdate (leftField v) (lowField v))
  | evalTriggers : OpcodeRow v 0x12#8 0x00FFFFFF#32 .evalTriggers
  | setActiveLayer : OpcodeRow v 0x20#8 0x00FFFF00#32 (.setActiveLayer (lowField v))
  | chordWrite : OpcodeRow v 0x21#8 0x0000FF00#32 (.chordWrite (layerField v) (lowField v))
  | chordRead : OpcodeRow v 0x22#8 0x0000FF00#32 (.chordRead (layerField v) (lowField v))
  | setChordCount : OpcodeRow v 0x23#8 0x0000FF00#32 (.setChordCount (layerField v) (lowField v))
  | modmapWrite : OpcodeRow v 0x24#8 0x0000F000#32 (.modmapWrite (layerField v) (bitField v) (lowField v))
  | modmapRead : OpcodeRow v 0x25#8 0x0000F0FF#32 (.modmapRead (layerField v) (bitField v))

namespace OpcodeRow

variable {v : Word} {op : Byte} {mask : Word} {i : Instr}

theorem operation_eq (h : OpcodeRow v op mask i) : operation op v = some i := by
  cases h <;> rfl

/-- Every opcode with a reserved mask has a row. -/
theorem of_reservedMask (v : Word) (h : reservedMask op = some mask) : ∃ i, OpcodeRow v op mask i := by
  have hmem := mem_of_reservedMask h
  simp only [reservedMasks, List.mem_cons, List.not_mem_nil, or_false, Prod.mk.injEq] at hmem
  rcases hmem with ⟨rfl, rfl⟩ | ⟨rfl, rfl⟩ | ⟨rfl, rfl⟩ | ⟨rfl, rfl⟩ | ⟨rfl, rfl⟩ | ⟨rfl, rfl⟩ | ⟨rfl, rfl⟩ |
    ⟨rfl, rfl⟩ | ⟨rfl, rfl⟩ | ⟨rfl, rfl⟩ | ⟨rfl, rfl⟩ | ⟨rfl, rfl⟩
  exacts [⟨_, .nop⟩, ⟨_, .linkWrite⟩, ⟨_, .linkRead⟩, ⟨_, .stUpdate⟩, ⟨_, .khUpdate⟩, ⟨_, .evalTriggers⟩,
    ⟨_, .setActiveLayer⟩, ⟨_, .chordWrite⟩, ⟨_, .chordRead⟩, ⟨_, .setChordCount⟩, ⟨_, .modmapWrite⟩,
    ⟨_, .modmapRead⟩]

end OpcodeRow

/-- The opcodes without a row are the ranges of R98. -/
theorem reservedMask_eq_none_iff (op : Byte) :
    reservedMask op = none ↔ (0x03 ≤ op.toNat ∧ op.toNat ≤ 0x0F) ∨ (0x13 ≤ op.toNat ∧ op.toNat ≤ 0x1F) ∨
      (0x26 ≤ op.toNat ∧ op.toNat ≤ 0xFF) := by
  have hop := op.isLt
  simp only [reservedMask, BitVec.toNat_eq, BitVec.toNat_ofNat, ite_eq_iff, reduceCtorEq, and_false, false_or, and_true,
    Nat.reducePow, Nat.reduceMod]
  omega

/-! What the decoder answers. -/

theorem decode_of_no_row {v : Word} (h : reservedMask (opcodeField v) = none) : decode v = .error .illegalCommand := by
  simp [decode, h]

theorem decode_of_reserved_zero {v mask : Word} {i : Instr} (hmask : reservedMask (opcodeField v) = some mask)
    (hi : operation (opcodeField v) v = some i) (hzero : v &&& mask = 0#32) : decode v = .ok i := by
  simp only [decode, hmask, hi, hzero, if_true]

theorem decode_of_reserved_ne_zero {v mask : Word} (hmask : reservedMask (opcodeField v) = some mask)
    (hset : v &&& mask ≠ 0#32) : decode v = .error .illegalArgument := by
  obtain ⟨i, hrow⟩ := OpcodeRow.of_reservedMask v hmask
  simp only [decode, hmask, hrow.operation_eq, hset, if_false]

/-- Everything the decoder can do with a word (R96, steps 1 and 2): no row, or a row with its reserved bits 0 or not. -/
theorem decode_cases (v : Word) :
    (reservedMask (opcodeField v) = none ∧ decode v = .error .illegalCommand) ∨
    (∃ mask i, OpcodeRow v (opcodeField v) mask i ∧ v &&& mask = 0#32 ∧ decode v = .ok i) ∨
    decode v = .error .illegalArgument := by
  cases hmask : reservedMask (opcodeField v) with
  | none => exact .inl ⟨rfl, decode_of_no_row hmask⟩
  | some mask =>
    obtain ⟨i, hrow⟩ := OpcodeRow.of_reservedMask v hmask
    by_cases hzero : v &&& mask = 0#32
    · exact .inr (.inl ⟨mask, i, hrow, hzero, decode_of_reserved_zero hmask hrow.operation_eq hzero⟩)
    · exact .inr (.inr (decode_of_reserved_ne_zero hmask hzero))

theorem decode_eq_illegalCommand_iff (v : Word) :
    decode v = .error .illegalCommand ↔ reservedMask (opcodeField v) = none := by
  refine ⟨fun h => ?_, decode_of_no_row⟩
  rcases decode_cases v with ⟨hnone, -⟩ | ⟨mask, i, -, -, hok⟩ | herr
  · exact hnone
  · simp [hok] at h
  · simp [herr] at h

/-! From a command to its word and back. -/

/-- The word of every command has its opcode and no reserved bit set. -/
theorem wordFields (i : Instr) : Laws.WordFields.Statement i := by
  cases i with
  | nop => exact Laws.WordFields.nop
  | linkWrite len => exact Laws.WordFields.linkWrite len
  | linkRead cap => exact Laws.WordFields.linkRead cap
  | stUpdate left right => exact Laws.WordFields.stUpdate left right
  | khUpdate left right => exact Laws.WordFields.khUpdate left right
  | evalTriggers => exact Laws.WordFields.evalTriggers
  | setActiveLayer layer => exact Laws.WordFields.setActiveLayer layer
  | chordWrite layer index => exact Laws.WordFields.chordWrite layer index
  | chordRead layer index => exact Laws.WordFields.chordRead layer index
  | setChordCount layer count => exact Laws.WordFields.setChordCount layer count
  | modmapWrite layer bit mod => exact Laws.WordFields.modmapWrite layer bit mod
  | modmapRead layer bit => exact Laws.WordFields.modmapRead layer bit

/-- The fields of a command's word are its operands. -/
theorem operation_encode (i : Instr) : operation (Laws.WordFields.opcodeOf i) (encode i) = some i := by
  cases i with
  | nop => rfl
  | linkWrite len => simp [operation, Laws.WordFields.opcodeOf, encode_linkWrite]
  | linkRead cap => simp [operation, Laws.WordFields.opcodeOf, encode_linkRead]
  | stUpdate left right => simp [operation, Laws.WordFields.opcodeOf, encode_stUpdate]
  | khUpdate left right => simp [operation, Laws.WordFields.opcodeOf, encode_khUpdate]
  | evalTriggers => rfl
  | setActiveLayer layer => simp [operation, Laws.WordFields.opcodeOf, encode_setActiveLayer]
  | chordWrite layer index => simp [operation, Laws.WordFields.opcodeOf, encode_chordWrite]
  | chordRead layer index => simp [operation, Laws.WordFields.opcodeOf, encode_chordRead]
  | setChordCount layer count => simp [operation, Laws.WordFields.opcodeOf, encode_setChordCount]
  | modmapWrite layer bit mod => simp [operation, Laws.WordFields.opcodeOf, encode_modmapWrite]
  | modmapRead layer bit => simp [operation, Laws.WordFields.opcodeOf, encode_modmapRead]

/-- Settles O1: the word's opcode is the command's, no reserved bit is set, and the fields are the operands. -/
theorem decodeEncodeRoundTrip : Obligations.DecodeEncodeRoundTrip := by
  intro i
  obtain ⟨hop, mask, hmask, hzero⟩ := wordFields i
  exact decode_of_reserved_zero (hop.symm ▸ hmask) (hop.symm ▸ operation_encode i) hzero

/-- A field all of whose bits the mask reserves is 0 in a word without reserved bits. -/
theorem extractLsb'_eq_zero_of_reserved {v mask : Word} {start len : Nat} (hzero : v &&& mask = 0#32)
    (hmask : mask.extractLsb' start len = BitVec.allOnes len) : v.extractLsb' start len = 0#len := by
  have h := congrArg (BitVec.extractLsb' start len) hzero
  rwa [BitVec.extractLsb'_and, hmask, BitVec.and_allOnes, BitVec.extractLsb'_zero] at h

theorem layerField_eq_zero {v mask : Word} (hzero : v &&& mask = 0#32) (hmask : layerField mask = 0xFF#8) :
    layerField v = 0#8 := extractLsb'_eq_zero_of_reserved hzero hmask

theorem leftField_eq_zero {v mask : Word} (hzero : v &&& mask = 0#32) (hmask : leftField mask = 0xFF#8) :
    leftField v = 0#8 := extractLsb'_eq_zero_of_reserved hzero hmask

theorem lowField_eq_zero {v mask : Word} (hzero : v &&& mask = 0#32) (hmask : lowField mask = 0xFF#8) :
    lowField v = 0#8 := extractLsb'_eq_zero_of_reserved hzero hmask

/-- The byte BIT stands in is BIT alone where the bits above it are reserved (R95). -/
theorem leftField_eq_bitField {v mask : Word} (hzero : v &&& mask = 0#32) (hmask : mask.extractLsb' 12 4 = 0xF#4) :
    leftField v = 0#4 ++ bitField v := by
  have hhigh : v.extractLsb' 12 4 = 0#4 := extractLsb'_eq_zero_of_reserved hzero hmask
  rw [← hhigh]
  exact (BitVec.extractLsb'_append_extractLsb'_eq_extractLsb' (start₁ := 8) (len₁ := 4) rfl).symm

/-- A word without reserved bits is the word of the command its row makes of it. -/
theorem OpcodeRow.encode_eq {v mask : Word} {i : Instr} (h : OpcodeRow v (opcodeField v) mask i)
    (hzero : v &&& mask = 0#32) : encode i = v := by
  refine .trans ?_ (wordOfBytes_fields v)
  generalize opcodeField v = op at h
  cases h with
  | nop => rw [encode_nop, layerField_eq_zero hzero rfl, leftField_eq_zero hzero rfl, lowField_eq_zero hzero rfl]
  | linkWrite => rw [encode_linkWrite, layerField_eq_zero hzero rfl, leftField_eq_zero hzero rfl]
  | linkRead => rw [encode_linkRead, layerField_eq_zero hzero rfl, leftField_eq_zero hzero rfl]
  | stUpdate => rw [encode_stUpdate, layerField_eq_zero hzero rfl]
  | khUpdate => rw [encode_khUpdate, layerField_eq_zero hzero rfl]
  | evalTriggers =>
    rw [encode_evalTriggers, layerField_eq_zero hzero rfl, leftField_eq_zero hzero rfl, lowField_eq_zero hzero rfl]
  | setActiveLayer => rw [encode_setActiveLayer, layerField_eq_zero hzero rfl, leftField_eq_zero hzero rfl]
  | chordWrite => rw [encode_chordWrite, leftField_eq_zero hzero rfl]
  | chordRead => rw [encode_chordRead, leftField_eq_zero hzero rfl]
  | setChordCount => rw [encode_setChordCount, leftField_eq_zero hzero rfl]
  | modmapWrite => rw [encode_modmapWrite, leftField_eq_bitField hzero rfl]
  | modmapRead => rw [encode_modmapRead, leftField_eq_bitField hzero rfl, lowField_eq_zero hzero rfl]

/-- Settles O2: a word decodes by a row with its reserved bits 0, and its other bits are the command's operands. -/
theorem decodedWordIsItsEncoding : Obligations.DecodedWordIsItsEncoding := by
  intro v i h
  rcases decode_cases v with ⟨-, herr⟩ | ⟨mask, j, hrow, hzero, hok⟩ | herr
  · simp [herr] at h
  · obtain rfl : j = i := Except.ok.inj (hok.symm.trans h)
    exact hrow.encode_eq hzero
  · simp [herr] at h

/-! Writing a word that does not decode. -/

/-- A write to CMD of a word that does not decode records the word and the response, and nothing else (R64, R96). -/
theorem State.hostWrite_cmd_error {v : Word} {e : DecodeError} (hv : decode v = .error e) (s : State) :
    s.hostWrite 0x000#12 v =
      .next { s with host := { s.host with cmdLast := v, cmdResp := errorResponse e } } := by
  simp [State.hostWrite, Reg.ofAddr_cmd, State.issueCommand, hv, State.withCmdLast, State.respond]

/-- OPCODE is the top byte of the word (R90). -/
theorem opcodeField_toNat (v : Word) : (opcodeField v).toNat = v.toNat / 2 ^ 24 := by
  rw [opcodeField, BitVec.extractLsb'_toNat, Nat.shiftRight_eq_div_pow, Nat.mod_eq_of_lt]
  have := v.isLt
  omega

/-- Settles O3: the opcodes without a row are R98's ranges, and no other word raises IllegalCommand. -/
theorem unassignedOpcodeIsIllegalCommand : Obligations.UnassignedOpcodeIsIllegalCommand := by
  intro v s op unassigned
  have hiff : unassigned ↔ decode v = .error .illegalCommand := by
    rw [decode_eq_illegalCommand_iff, reservedMask_eq_none_iff, opcodeField_toNat]
  exact ⟨hiff, fun hun => State.hostWrite_cmd_error (hiff.mp hun) s, rfl⟩

/-- Settles O4: an assigned opcode has a row, and a reserved bit of that row is set. -/
theorem reservedBitIsIllegalArgument : Obligations.ReservedBitIsIllegalArgument := by
  intro op mask v s hmem hop hset
  subst hop
  have hdecode := decode_of_reserved_ne_zero (reservedMask_of_mem (opcodeField v, mask) hmem) hset
  exact ⟨hdecode, rfl, State.hostWrite_cmd_error hdecode s⟩

/-- The word of a command decodes to it. -/
theorem decode_of_encode_eq {v : Word} {i : Instr} (h : encode i = v) : decode v = .ok i :=
  h ▸ decodeEncodeRoundTrip i

/-- Settles O5: the first nine words are the words of their commands; the tenth has bit 8 of FN's reserved bits set, the
last an opcode without a row. -/
theorem writtenWordsDecode : Obligations.WrittenWordsDecode :=
  ⟨decode_of_encode_eq rfl, decode_of_encode_eq rfl, decode_of_encode_eq rfl, decode_of_encode_eq rfl,
    decode_of_encode_eq rfl, decode_of_encode_eq rfl, decode_of_encode_eq rfl, decode_of_encode_eq rfl,
    decode_of_encode_eq rfl, decode_of_reserved_ne_zero (mask := 0x00FFFF00#32) rfl (by decide),
    decode_of_no_row rfl⟩

end Sys2Proof.Machine
end

section
/-! SUPPORT. The configuration commands (40_config.md): the outcome of a range check by the range itself, and the
frame the commands share. -/

namespace Sys2Proof.Machine

/-! The range checks (R100), each as the range it checks. -/

theorem layerOk_iff (c : Config) (layer : Byte) : layerOk c layer = true ↔ layer.toNat < c.nLayers :=
  decide_eq_true_iff

theorem chordOk_iff (c : Config) (layer index : Byte) :
    chordOk c layer index = true ↔ layer.toNat < c.nLayers ∧ index.toNat < c.maxChords := by
  rw [chordOk, Bool.and_eq_true, layerOk_iff, decide_eq_true_iff]

theorem countOk_iff (c : Config) (layer count : Byte) :
    countOk c layer count = true ↔ layer.toNat < c.nLayers ∧ count.toNat ≤ c.maxChords := by
  rw [countOk, Bool.and_eq_true, layerOk_iff, decide_eq_true_iff]

/-- Both outcomes of a command whose operand check decides the range `p` (R96, step 3). -/
theorem State.checked_of_iff {ok : Bool} {p : Prop} (hok : ok = true ↔ p) (f : State → State) (s : State) :
    (p → s.checked ok f = .next ((f s).respond .accepted)) ∧
    (¬ p → s.checked ok f = .next (s.respond .illegalArgument)) :=
  ⟨fun hp => State.checked_of_ok f s (hok.mpr hp),
    fun hp => State.checked_of_not_ok f s (Bool.eq_false_iff.mpr (mt hok.mp hp))⟩

/-! The writes to layer memory. -/

/-- Settles O19: of layer memory the command is one `setChord`, which every other accessor reads through. -/
theorem chordWriteStoresTheEntry : Obligations.ChordWriteStoresTheEntry := by
  intro layer index s
  obtain ⟨hin, hout⟩ := State.checked_of_iff (chordOk_iff s.cfg layer index)
    (fun s => s.withLayers (s.layers.setChord layer index s.host.arg0)) s
  refine ⟨fun hrange => ⟨_, hin hrange, rfl, ?_, fun l i hother => ?_, fun _ => rfl, fun _ _ => rfl⟩, hout⟩
  · exact (LayerMem.chord_setChord ..).trans (if_pos ⟨rfl, rfl⟩)
  · exact (LayerMem.chord_setChord ..).trans (if_neg hother)

/-- Settles O21: of layer memory the command is one `setCount`, which every other accessor reads through. -/
theorem setChordCountKeepsEntries : Obligations.SetChordCountKeepsEntries := by
  intro layer count s
  obtain ⟨hin, hout⟩ := State.checked_of_iff (countOk_iff s.cfg layer count)
    (fun s => s.withLayers (s.layers.setCount layer count)) s
  refine ⟨fun hrange => ⟨_, hin hrange, rfl, ?_, fun l hother => ?_, fun _ _ => rfl, fun _ _ => rfl⟩, hout⟩
  · exact (LayerMem.count_setCount ..).trans (if_pos rfl)
  · exact (LayerMem.count_setCount ..).trans (if_neg hother)

/-- Settles O22: of layer memory the command is one `setMod`, which every other accessor reads through. -/
theorem modmapWriteStoresTheModifier : Obligations.ModmapWriteStoresTheModifier := by
  intro layer bit mod s
  obtain ⟨hin, hout⟩ := State.checked_of_iff (layerOk_iff s.cfg layer)
    (fun s => s.withLayers (s.layers.setMod layer bit mod)) s
  refine ⟨fun hrange => ⟨_, hin hrange, rfl, ?_, fun l b hother => ?_, fun _ _ => rfl, fun _ => rfl⟩,
    fun hle => hout (not_lt.mpr hle)⟩
  · exact (LayerMem.mod_setMod ..).trans (if_pos ⟨rfl, rfl⟩)
  · exact (LayerMem.mod_setMod ..).trans (if_neg hother)

/-! The frame. -/

/-- Everything but the response, ARG0, the active layer and layer memory is the same: what a configuration command may
change (R120). -/
structure State.ConfigurationOnly (s t : State) : Prop where
  cfg : t.cfg = s.cfg
  cmdLast : t.host.cmdLast = s.host.cmdLast
  arg1 : t.host.arg1 = s.host.arg1
  tracker : t.tracker = s.tracker
  shouldTrigger : t.kh.shouldTrigger = s.kh.shouldTrigger
  modifier : t.kh.modifier = s.kh.modifier
  res : t.res = s.res
  key : t.key = s.key
  link : t.link = s.link
  sync : t.sync = s.sync
  txBuf : t.txBuf = s.txBuf
  rxBuf : t.rxBuf = s.rxBuf
  env : t.env = s.env

namespace State.ConfigurationOnly

theorem refl (s : State) : s.ConfigurationOnly s :=
  ⟨rfl, rfl, rfl, rfl, rfl, rfl, rfl, rfl, rfl, rfl, rfl, rfl, rfl⟩

theorem respond {s t : State} (h : s.ConfigurationOnly t) (r : Resp) : s.ConfigurationOnly (t.respond r) := { h with }

theorem withLayers (s : State) (m : LayerMem) : s.ConfigurationOnly (s.withLayers m) := { refl s with }

theorem withArg0 (s : State) (v : Word) : s.ConfigurationOnly (s.withArg0 v) := { refl s with }

theorem withActiveLayer (s : State) (layer : Byte) :
    s.ConfigurationOnly (s.withKh { s.kh with activeLayer := layer }) := { refl s with }

theorem of_checked {ok : Bool} {f : State → State} {s t : State} (h : s.checked ok f = .next t)
    (hf : s.ConfigurationOnly (f s)) : s.ConfigurationOnly t := by
  rcases State.checked_cases h with ⟨-, rfl⟩ | ⟨-, rfl⟩
  · exact hf.respond _
  · exact (refl s).respond _

end State.ConfigurationOnly

/-- What a configuration command can do, accepted or refused: its arm of the opcode map, case by case. -/
theorem exec_configurationOnly {i : Instr} {s t : State} (hi : i.isConfiguration = true) (h : exec i s = .next t) :
    s.ConfigurationOnly t := by
  cases i with
  | nop =>
    obtain rfl := Host.Outcome.next.inj h
    exact (State.ConfigurationOnly.refl s).respond _
  | setActiveLayer layer => exact .of_checked h (.withActiveLayer s layer)
  | chordWrite layer index => exact .of_checked h (.withLayers s _)
  | chordRead layer index => exact .of_checked h (.withArg0 s _)
  | setChordCount layer count => exact .of_checked h (.withLayers s _)
  | modmapWrite layer bit mod => exact .of_checked h (.withLayers s _)
  | modmapRead layer bit => exact .of_checked h (.withArg0 s _)
  | linkWrite | linkRead | stUpdate | khUpdate | evalTriggers => cases hi

/-- Settles O24: each clause is a field of the frame. -/
theorem configurationCommandsFrame : Obligations.ConfigurationCommandsFrame := by
  intro i s t hi h
  have hkept := exec_configurationOnly hi h
  exact ⟨hkept.tracker, hkept.shouldTrigger, hkept.modifier, hkept.res, hkept.key, hkept.link, hkept.sync,
    hkept.txBuf, hkept.rxBuf, hkept.env, hkept.cfg, hkept.cmdLast, hkept.arg1⟩

/-! NOP, the active layer and the reads. -/

/-- A word of opcode 0x00 without reserved bits is the word of NOP (R121), so any other raises IllegalArgument. -/
theorem decode_of_opcode_zero {v : Word} (hop : opcodeField v = 0x00#8) (hv : v ≠ encode .nop) :
    decode v = .error .illegalArgument := by
  have hrow : OpcodeRow v (opcodeField v) 0x00FFFFFF#32 .nop := hop ▸ .nop
  exact decode_of_reserved_ne_zero (hop ▸ rfl) fun hzero => hv (hrow.encode_eq hzero).symm

/-- Settles O17: NOP is the response alone, and a word below 2^24 has opcode 0x00. -/
theorem nopOnlyResponds : Obligations.NopOnlyResponds := by
  refine ⟨fun _ => rfl, rfl, rfl, fun v hlt hne => decode_of_opcode_zero ?_ hne⟩
  apply BitVec.eq_of_toNat_eq
  rw [opcodeField_toNat, Nat.div_eq_of_lt hlt, BitVec.toNat_ofNat, Nat.zero_mod]

/-- Settles O18: the two outcomes of a command checked by `layerOk`, whose effect is the KeyHandler's index. -/
theorem setActiveLayerResult : Obligations.SetActiveLayerResult := by
  intro layer s
  obtain ⟨hin, hout⟩ := State.checked_of_iff (layerOk_iff s.cfg layer)
    (fun s => s.withKh { s.kh with activeLayer := layer }) s
  exact ⟨hin, fun hle => hout (not_lt.mpr hle)⟩

/-- Settles O20: the two outcomes of a command checked by `chordOk`, whose effect is ARG0. -/
theorem chordReadReturnsTheEntry : Obligations.ChordReadReturnsTheEntry := by
  intro layer index s
  exact State.checked_of_iff (chordOk_iff s.cfg layer index) (fun s => s.withArg0 (s.layers.chord layer index)) s

/-- Settles O23: the two outcomes of a command checked by `layerOk`, whose effect is ARG0. -/
theorem modmapReadReturnsTheModifier : Obligations.ModmapReadReturnsTheModifier := by
  intro layer bit s
  obtain ⟨hin, hout⟩ := State.checked_of_iff (layerOk_iff s.cfg layer)
    (fun s => s.withArg0 ((s.layers.mod layer bit).setWidth 32)) s
  exact ⟨hin, fun hle => hout (not_lt.mpr hle)⟩

end Sys2Proof.Machine
end

section
/-! SUPPORT. The tracker and the chord predicate (R141 to R152): the combined mask, the edges and the predicate
position by position, and the two commands that need no more. -/

namespace Sys2Proof.Machine

/-! The combined mask and the edges. -/

/-- The combined state is LEFT above RIGHT (R141, R145). -/
theorem combine_eq_append (left right : Byte) : combine left right = left ++ right := by
  rw [BitVec.append_def, BitVec.shiftLeftZeroExtend_eq, BitVec.setWidth'_eq]
  rfl

theorem pressEdges_self (new : Mask) : pressEdges new new = 0#16 := BitVec.and_not_self new

theorem releaseEdges_self (new : Mask) : releaseEdges new new = 0#16 := BitVec.not_and_self new

/-- The tracker after either update (R145, R155). -/
theorem exec_update_tracker {left right : Byte} {i : Instr} (hi : i = .stUpdate left right ∨ i = .khUpdate left right)
    (s : State) : ∃ t, exec i s = .next t ∧ t.tracker = s.tracker.update (combine left right) := by
  rcases hi with rfl | rfl
  · exact ⟨_, rfl, rfl⟩
  · obtain ⟨-, -, htracker, -⟩ := State.khStep_spec (combine left right) s
    exact ⟨_, rfl, htracker⟩

/-- Settles O31: the second update sets the state it finds. -/
theorem edgesAreDisjointAndRepeatsHaveNone : Obligations.EdgesAreDisjointAndRepeatsHaveNone := by
  intro left right i j s hi hj
  obtain ⟨t, ht, hfirst⟩ := exec_update_tracker hi s
  obtain ⟨u, hu, hsecond⟩ := exec_update_tracker hj t
  rw [hfirst] at hsecond
  refine ⟨t, u, ht, hu, ?_, ?_, ?_⟩
  · rw [hfirst]
    exact pressEdges_and_releaseEdges _ _
  · rw [hsecond]
    exact pressEdges_self _
  · rw [hsecond]
    exact releaseEdges_self _

/-- Settles O25: the command is one tracker step to the combined mask. -/
theorem stUpdateResult : Obligations.StUpdateResult := by
  intro left right s
  rw [← combine_eq_append]
  rfl

/-! The chord predicate. -/

/-- Settles O26: the predicate's operands are the three fields of ARG0 and ARG1. -/
theorem evalTriggersResult : Obligations.EvalTriggersResult := fun _ => rfl

theorem ne_zero_iff_exists_getLsbD {w : Nat} (x : BitVec w) : x ≠ 0#w ↔ ∃ b, x.getLsbD b = true := by
  constructor
  · intro hne
    by_contra hnone
    refine hne (BitVec.eq_of_getLsbD_eq fun b _ => ?_)
    simpa using not_exists.mp hnone b
  · rintro ⟨b, hb⟩ rfl
    simp at hb

/-- One mask lies within another when their AND is the one. -/
theorem and_eq_self_iff_getLsbD {w : Nat} (x y : BitVec w) :
    x &&& y = x ↔ ∀ b, x.getLsbD b = true → y.getLsbD b = true := by
  constructor
  · intro h b hb
    rw [← h, BitVec.getLsbD_and, Bool.and_eq_true] at hb
    exact hb.2
  · intro h
    refine BitVec.eq_of_getLsbD_eq fun b _ => ?_
    rw [BitVec.getLsbD_and, Bool.and_eq_left_iff_imp]
    exact h b

/-- The three conjuncts of the chord predicate (R151). -/
theorem triggers_iff (trigger last released : Mask) :
    triggers trigger last released = true ↔
      released ≠ 0#16 ∧ released &&& trigger = released ∧ trigger &&& last = trigger := by
  simp only [triggers, Bool.and_eq_true, bne_iff_ne, beq_iff_eq, and_assoc]

/-- Settles O27: each conjunct of the predicate, read at every position. -/
theorem chordPredicateByPosition : Obligations.ChordPredicateByPosition := by
  have hpositions (trigger last released : Mask) : triggers trigger last released = true ↔
      (∃ b, released.getLsbD b = true) ∧
      (∀ b, released.getLsbD b = true → trigger.getLsbD b = true) ∧
      (∀ b, trigger.getLsbD b = true → last.getLsbD b = true) := by
    rw [triggers_iff, ne_zero_iff_exists_getLsbD, and_eq_self_iff_getLsbD, and_eq_self_iff_getLsbD]
  refine ⟨hpositions, fun last released => Bool.eq_false_iff.mpr fun htriggers => ?_⟩
  obtain ⟨⟨b, hb⟩, hwithin, -⟩ := (hpositions _ _ _).mp htriggers
  simpa using hwithin b hb

end Sys2Proof.Machine
end

section
/-! SUPPORT. What KH_UPDATE computes from layer memory (R154, R156): the first match and the modifier, each from the
active layer alone. -/

namespace Sys2Proof.Machine

/-! The first match. -/

section
variable {n : Nat} {p : Byte → Bool}

/-- Scanning the bytes below `n` in order finds the lowest that satisfies `p`. -/
theorem find?_bytes_eq_some (hn : n ≤ 256) {i : Byte} :
    ((List.range n).map (BitVec.ofNat 8)).find? p = some i ↔
      i.toNat < n ∧ p i = true ∧ ∀ j : Byte, j.toNat < i.toNat → p j = false := by
  rw [List.find?_map, Option.map_eq_some_iff]
  constructor
  · rintro ⟨k, hfind, rfl⟩
    obtain ⟨hp, hmem, hlow⟩ := List.find?_range_eq_some.mp hfind
    have hk : k < n := List.mem_range.mp hmem
    have hval : (BitVec.ofNat 8 k).toNat = k := Nat.mod_eq_of_lt (by omega)
    rw [hval]
    refine ⟨hk, hp, fun j hj => ?_⟩
    simpa using hlow j.toNat hj
  · rintro ⟨hi, hp, hlow⟩
    refine ⟨i.toNat, List.find?_range_eq_some.mpr ⟨?_, List.mem_range.mpr hi, fun j hj => ?_⟩, by simp⟩
    · simpa using hp
    · have hval : (BitVec.ofNat 8 j).toNat = j := Nat.mod_eq_of_lt (by omega)
      simpa using hlow (BitVec.ofNat 8 j) (hval.symm ▸ hj)

theorem find?_bytes_eq_none (hn : n ≤ 256) :
    ((List.range n).map (BitVec.ofNat 8)).find? p = none ↔ ∀ i : Byte, i.toNat < n → p i = false := by
  rw [List.find?_map, Option.map_eq_none_iff, List.find?_range_eq_none]
  constructor
  · intro h i hi
    simpa using h i.toNat hi
  · intro h k hk
    have hval : (BitVec.ofNat 8 k).toNat = k := Nat.mod_eq_of_lt (by omega)
    simpa using h (BitVec.ofNat 8 k) (hval.symm ▸ hk)

end

/-- Settles O28: the scan runs over the bytes below the count, which is a byte itself. -/
theorem firstMatchIsTheLowestIndex : Obligations.FirstMatchIsTheLowestIndex := by
  intro m l L J
  have hcount : (m.count l).toNat ≤ 256 := (m.count l).isLt.le
  exact ⟨fun i => find?_bytes_eq_some hcount, find?_bytes_eq_none hcount⟩

/-- The first match reads the layer's count and its chords (R164). -/
theorem LayerMem.firstMatch_congr {m n : LayerMem} {l : Byte} (hcount : m.count l = n.count l)
    (hchord : ∀ i, m.chord l i = n.chord l i) (L J : Mask) : m.firstMatch l L J = n.firstMatch l L J := by
  simp only [LayerMem.firstMatch, hcount, hchord]

/-! The modifier. -/

/-- A bit of the OR over a list is a bit of one of its members that `p` admits. -/
theorem getLsbD_foldl_or {α : Type} (p : α → Bool) (f : α → Byte) (k : Nat) (l : List α) (acc : Byte) :
    (l.foldl (fun acc b => if p b then acc ||| f b else acc) acc).getLsbD k = true ↔
      acc.getLsbD k = true ∨ ∃ b ∈ l, p b = true ∧ (f b).getLsbD k = true := by
  induction l generalizing acc with
  | nil => simp
  | cons b l ih =>
    rw [List.foldl_cons, ih, List.exists_mem_cons_iff]
    cases hp : p b
    · simp
    · simp [or_assoc]

/-- The modifier of a layer bit by bit (R156). -/
theorem LayerMem.getLsbD_modifier (m : LayerMem) (layer : Byte) (held : Mask) (k : Nat) :
    (m.modifier layer held).getLsbD k = true ↔
      ∃ b : BitVec 4, held.getLsbD b.toNat = true ∧ (m.mod layer b).getLsbD k = true := by
  rw [LayerMem.modifier, getLsbD_foldl_or held.getLsbD (fun b => m.mod layer (BitVec.ofNat 4 b))]
  constructor
  · rintro (hzero | ⟨b, hb, hheld, hbit⟩)
    · simp at hzero
    · have hval : (BitVec.ofNat 4 b).toNat = b := Nat.mod_eq_of_lt (List.mem_range.mp hb)
      exact ⟨BitVec.ofNat 4 b, hval.symm ▸ hheld, hbit⟩
  · rintro ⟨b, hheld, hbit⟩
    exact .inr ⟨b.toNat, List.mem_range.mpr b.isLt, hheld, by simpa using hbit⟩

/-- Settles O29: the stored modifier is the active layer's for the combined mask. -/
theorem modifierIsTheOrOfHeldPositions : Obligations.ModifierIsTheOrOfHeldPositions := by
  intro left right s
  refine ⟨_, rfl, fun k => ?_⟩
  rw [← combine_eq_append]
  exact LayerMem.getLsbD_modifier ..

/-- The modifier reads the layer's map (R164). -/
theorem LayerMem.modifier_congr {m n : LayerMem} {l : Byte} (hmod : ∀ b, m.mod l b = n.mod l b) (held : Mask) :
    m.modifier l held = n.modifier l held := by
  simp only [LayerMem.modifier, hmod]

end Sys2Proof.Machine
end

section
/-! SUPPORT. KH_UPDATE as one record (R155 to R161): what it writes is a function of the chord it hits. -/

namespace Sys2Proof.Machine

/-! The chord that a KH_UPDATE hits, and what it writes for it. -/

/-- The index and the action word of the chord that the KH_UPDATE of the combined mask `new` matches (R157, R159). -/
def State.khHit (new : Mask) (s : State) : Option (Byte × Mask) :=
  (s.scan s.tracker.state (releaseEdges new s.tracker.state)).map fun i =>
    (i, entryAction (s.layers.chord s.kh.activeLayer i))

/-- The result registers after a KH_UPDATE with the hit `hit` (R159, R160). -/
def Results.ofHit (hit : Option (Byte × Mask)) (r : Results) : Results :=
  match hit with
  | none => { r with matched := false, fired := false, matchIdx := 0#8 }
  | some (i, action) => { r with matched := true, fired := actionIsKey action, matchIdx := i }

/-- The key output registers after a KH_UPDATE with the hit `hit` and the modifier `mod` (R161). -/
def KeyOut.ofHit (hit : Option (Byte × Mask)) (mod : Byte) (k : KeyOut) : KeyOut :=
  match hit with
  | none => k
  | some (_, action) => if actionIsKey action then k.dispatch (actionKeycode action) mod else k

/-- The writes for a match, as functions of the hit. -/
theorem State.applyMatch_eq (m : Option Byte) (mod : Byte) (s : State) :
    s.applyMatch m mod =
      (s.withRes (s.res.ofHit (m.map fun i => (i, entryAction (s.layers.chord s.kh.activeLayer i))))).withKey
        (s.key.ofHit (m.map fun i => (i, entryAction (s.layers.chord s.kh.activeLayer i))) mod) := by
  rcases State.applyMatch_cases m mod s with ⟨rfl, h⟩ | ⟨i, rfl, hkey, h⟩ | ⟨i, rfl, hkey, h⟩ <;> rw [h]
  · rfl
  · simp only [Option.map_some, Results.ofHit, KeyOut.ofHit, hkey, if_true]
  · simp only [Option.map_some, Results.ofHit, KeyOut.ofHit, hkey, if_false, Bool.false_eq_true]
    rfl

/-- Everything a KH_UPDATE does (R155). -/
theorem State.khStep_eq (new : Mask) (s : State) :
    s.khStep new = { s with
      tracker := s.tracker.update new
      kh := { s.kh with
        shouldTrigger :=
          latchNext s.kh.shouldTrigger (pressEdges new s.tracker.state) (releaseEdges new s.tracker.state)
        modifier := s.layers.modifier s.kh.activeLayer new }
      res := Results.ofHit (s.khHit new) { s.res with jpRet := pressEdges new s.tracker.state }
      key := s.key.ofHit (s.khHit new) (s.layers.modifier s.kh.activeLayer new) } :=
  congrArg (State.withKh _) (State.applyMatch_eq _ _ (s.trackerStep new))

/-- A hit leaves `jp_ret` and `trig` (R149, R150). -/
theorem Results.ofHit_frame (hit : Option (Byte × Mask)) (r : Results) :
    r.ofHit hit = { r.ofHit hit with jpRet := r.jpRet, trig := r.trig } := by
  cases hit <;> rfl

/-- `fire_pending` is set by a dispatch and by nothing else (R161, R162). -/
theorem KeyOut.ofHit_firePending (hit : Option (Byte × Mask)) (mod : Byte) (k : KeyOut) (r : Results) :
    (k.ofHit hit mod).firePending = (k.firePending || (Results.ofHit hit r).fired) := by
  rcases hit with _ | ⟨i, action⟩
  · simp [KeyOut.ofHit, Results.ofHit]
  · cases hkey : actionIsKey action <;> simp [KeyOut.ofHit, Results.ofHit, KeyOut.dispatch, hkey]

/-- A dispatch neither reads nor changes SINK_ERR (R163). -/
theorem KeyOut.ofHit_withSinkErr (hit : Option (Byte × Mask)) (mod : Byte) (k : KeyOut) (err : Bool) :
    KeyOut.ofHit hit mod { k with sinkErr := err } = { k.ofHit hit mod with sinkErr := err } := by
  rcases hit with _ | ⟨i, action⟩
  · rfl
  · simp only [KeyOut.ofHit]
    split <;> rfl

/-! When there is a hit. -/

theorem State.scan_of_disarmed {s : State} (h : s.kh.shouldTrigger = false) (L J : Mask) : s.scan L J = none := by
  simp [State.scan, h]

theorem State.scan_of_armed {s : State} (h : s.kh.shouldTrigger = true) (L J : Mask) :
    s.scan L J = s.layers.firstMatch s.kh.activeLayer L J := by
  simp [State.scan, h]

/-- Chord `i` of the active layer is one that the KH_UPDATE of the combined mask `new` may match (R154, R157). -/
def State.Hits (new : Mask) (s : State) (i : Byte) : Prop :=
  s.kh.shouldTrigger = true ∧ i.toNat < (s.layers.count s.kh.activeLayer).toNat ∧
    triggers (entryTrigger (s.layers.chord s.kh.activeLayer i)) s.tracker.state
      (releaseEdges new s.tracker.state) = true

theorem State.khHit_eq_none {new : Mask} {s : State} (h : ∀ i, ¬ s.Hits new i) : s.khHit new = none := by
  rw [State.khHit, Option.map_eq_none_iff]
  cases harmed : s.kh.shouldTrigger with
  | false => exact State.scan_of_disarmed harmed _ _
  | true =>
    rw [State.scan_of_armed harmed]
    refine (firstMatchIsTheLowestIndex ..).2.mpr fun i hi => Bool.eq_false_iff.mpr fun htriggers => ?_
    exact h i ⟨harmed, hi, htriggers⟩

/-- The lowest chord that may be matched is the hit. -/
theorem State.khHit_eq_some {new : Mask} {s : State} {i : Byte} (hhit : s.Hits new i)
    (hlow : ∀ j : Byte, j.toNat < i.toNat → ¬ s.Hits new j) :
    s.khHit new = some (i, entryAction (s.layers.chord s.kh.activeLayer i)) := by
  obtain ⟨harmed, hi, htriggers⟩ := hhit
  have hscan : s.scan s.tracker.state (releaseEdges new s.tracker.state) = some i := by
    rw [State.scan_of_armed harmed]
    refine ((firstMatchIsTheLowestIndex ..).1 i).mpr ⟨hi, htriggers, fun j hj => Bool.eq_false_iff.mpr fun hj' => ?_⟩
    exact hlow j hj ⟨harmed, hj.trans hi, hj'⟩
  rw [State.khHit, hscan, Option.map_some]

/-- A chord fires only with the latch armed and on a release (R151, R157). -/
theorem State.khStep_fired {new : Mask} {s : State} (h : (s.khStep new).res.fired = true) :
    s.kh.shouldTrigger = true ∧ releaseEdges new s.tracker.state ≠ 0#16 := by
  rw [State.khStep_eq] at h
  by_contra hnot
  have hnone : s.khHit new = none := State.khHit_eq_none fun i ⟨harmed, _, htriggers⟩ =>
    hnot ⟨harmed, ((triggers_iff ..).mp htriggers).1⟩
  rw [hnone] at h
  cases h

/-! The statements about one KH_UPDATE. -/

theorem latchNext_eq_ite (latch : Bool) (jp jr : Mask) :
    latchNext latch jp jr = if jr ≠ 0#16 then false else latch || decide (jp ≠ 0#16) := by
  by_cases hjr : jr = 0#16 <;> by_cases hjp : jp = 0#16 <;> simp [latchNext, hjr, hjp]

/-- Settles O30: `khStep_eq` is the next state, and the hit is none or the lowest chord. -/
theorem khUpdateResult : Obligations.KhUpdateResult := by
  intro left right s new jp jr mod hit
  have hnew : combine left right = new := combine_eq_append left right
  have hexec : exec (.khUpdate left right) s = .next ((s.khStep new).respond .accepted) := hnew ▸ rfl
  refine ⟨_, hexec, ?_, fun hnone => ?_, fun m hhit hlow => ?_⟩
  · rw [State.khStep_eq, latchNext_eq_ite, Results.ofHit_frame]
    rfl
  · rw [State.khStep_eq, State.khHit_eq_none hnone]
    exact ⟨rfl, rfl, rfl, rfl⟩
  · rw [State.khStep_eq, State.khHit_eq_some hhit hlow]
    refine ⟨rfl, rfl, fun hkey => ?_, fun hkey => ?_⟩
    · have haction : actionIsKey (entryAction (s.layers.chord s.kh.activeLayer m)) = true := beq_iff_eq.mpr hkey
      exact ⟨haction, if_pos haction⟩
    · have haction : actionIsKey (entryAction (s.layers.chord s.kh.activeLayer m)) = false :=
        beq_eq_false_iff_ne.mpr hkey
      exact ⟨haction, if_neg (Bool.eq_false_iff.mp haction)⟩

/-- Settles O32: of layer memory the hit and the modifier read the active layer alone. -/
theorem onlyTheActiveLayerParticipates : Obligations.OnlyTheActiveLayerParticipates := by
  intro left right s t m hcount hchord hmod h
  obtain rfl := Host.Outcome.next.inj h
  have hhit : State.khHit (combine left right) { s with layers := m } = s.khHit (combine left right) := by
    simp only [State.khHit, State.scan, LayerMem.firstMatch_congr hcount hchord, hchord]
  have hmodifier := LayerMem.modifier_congr hmod (combine left right)
  refine congrArg Host.Outcome.next ?_
  rw [State.khStep_eq, State.khStep_eq, hhit, hmodifier]
  rfl

/-! Any sequence of KH_UPDATEs. -/

theorem State.fires_cons (left right : Byte) (us : List (Byte × Byte)) (s : State) :
    s.fires ((left, right) :: us) = (if (s.khStep (combine left right)).res.fired then 1 else 0) +
      ((s.khStep (combine left right)).respond .accepted).fires us := rfl

/-- What one KH_UPDATE fires and leaves armed, a fresh press or the armed latch pays for (R157, R158). -/
theorem State.khStep_fired_add_armed (new : Mask) (s : State) :
    (if (s.khStep new).res.fired then 1 else 0) + (if (s.khStep new).kh.shouldTrigger then 1 else 0) ≤
      (if pressEdges new s.tracker.state = 0#16 then 0 else 1) + if s.kh.shouldTrigger then 1 else 0 := by
  obtain ⟨-, -, -, hkh⟩ := State.khStep_spec new s
  rw [hkh, latchNext_eq_ite]
  cases hfired : (s.khStep new).res.fired with
  | true =>
    obtain ⟨harmed, hreleased⟩ := State.khStep_fired hfired
    simp [harmed, hreleased]
  | false =>
    by_cases hreleased : releaseEdges new s.tracker.state = 0#16
    · by_cases hpressed : pressEdges new s.tracker.state = 0#16 <;> simp [hreleased, hpressed]
    · simp [hreleased]

/-- Settles O33, by induction on the updates, with the latch as what is left to fire. -/
theorem eachPressFiresAtMostOnce : Obligations.EachPressFiresAtMostOnce := by
  intro us
  induction us with
  | nil => exact fun s => Nat.zero_le _
  | cons u us ih =>
    intro s
    obtain ⟨left, right⟩ := u
    obtain ⟨-, -, htracker, -⟩ := State.khStep_spec (combine left right) s
    have hone := State.khStep_fired_add_armed (combine left right) s
    have hrest := ih ((s.khStep (combine left right)).respond .accepted)
    rw [State.respond_tracker, State.respond_kh, htracker] at hrest
    change _ ≤ presses (combine left right) us + _ at hrest
    rw [State.fires_cons, presses]
    omega

end Sys2Proof.Machine
end

section
/-! SUPPORT. An engine or configuration command in other surroundings (R120, R140): what it does is the same whatever
stands in the link unit, the synchronisers, the buffers, SINK_ERR and the model's own fields. -/

namespace Sys2Proof.Machine

/-- The parts of the state that no engine or configuration command reads or changes. -/
structure Surroundings where
  /-- SINK_ERR. -/
  sinkErr : Bool
  /-- The link unit's registers. -/
  link : Link
  /-- The synchronisers. -/
  sync : Sync
  /-- `TX_BUF`. -/
  txBuf : Memory 8
  /-- `RX_BUF`. -/
  rxBuf : Memory 8
  /-- The model's own fields. -/
  env : Env

def State.surroundings (s : State) : Surroundings := ⟨s.key.sinkErr, s.link, s.sync, s.txBuf, s.rxBuf, s.env⟩

/-- The state with other surroundings. -/
def State.around (b : Surroundings) (s : State) : State :=
  { s with
    key := { s.key with sinkErr := b.sinkErr }
    link := b.link, sync := b.sync, txBuf := b.txBuf, rxBuf := b.rxBuf, env := b.env }

theorem State.checked_around {ok : Bool} {f : State → State} {b : Surroundings} {s : State}
    (hf : f (s.around b) = (f s).around b) :
    (s.around b).checked ok f = onNext (s.checked ok f) (State.around b) := by
  cases ok
  · rfl
  · rw [State.checked_of_ok _ _ rfl, State.checked_of_ok _ _ rfl, hf]
    rfl

theorem State.khStep_around (new : Mask) (b : Surroundings) (s : State) :
    (s.around b).khStep new = (s.khStep new).around b := by
  rw [State.khStep_eq, State.khStep_eq]
  simp only [State.around, ← KeyOut.ofHit_withSinkErr]
  rfl

/-- An engine or configuration command does the same in any surroundings, and leaves them. -/
theorem exec_around {i : Instr} (hi : i.isLink = false) (b : Surroundings) (s : State) :
    exec i (s.around b) = onNext (exec i s) (State.around b) := by
  cases i with
  | linkWrite len => cases hi
  | linkRead cap => cases hi
  | nop => rfl
  | stUpdate l r => rfl
  | evalTriggers => rfl
  | khUpdate l r =>
    exact congrArg (fun u : State => Host.Outcome.next (u.respond .accepted)) (State.khStep_around (combine l r) b s)
  | setActiveLayer l => exact State.checked_around rfl
  | chordWrite l i => exact State.checked_around rfl
  | chordRead l i => exact State.checked_around rfl
  | setChordCount l n => exact State.checked_around rfl
  | modmapWrite l b m => exact State.checked_around rfl
  | modmapRead l b => exact State.checked_around rfl

/-- The surroundings after the command are those before it: the command in its own surroundings. -/
theorem exec_surroundings {i : Instr} (hi : i.isLink = false) {s t : State} (h : exec i s = .next t) :
    t.surroundings = s.surroundings := by
  have hown : exec i (s.around s.surroundings) = onNext (exec i s) (State.around s.surroundings) :=
    exec_around hi s.surroundings s
  rw [h] at hown
  have hkept : t = t.around s.surroundings := Host.Outcome.next.inj (h.symm.trans hown)
  exact (congrArg State.surroundings hkept :)

/-- Settles O36: the link registers, the synchronisers and the buffers are surroundings. -/
theorem engineAndConfigurationIgnoreTheLink : Obligations.EngineAndConfigurationIgnoreTheLink := by
  intro i s t l y tx rx hi h
  change exec i (s.around { s.surroundings with link := l, sync := y, txBuf := tx, rxBuf := rx }) =
    .next (t.around { t.surroundings with link := l, sync := y, txBuf := tx, rxBuf := rx })
  rw [exec_around hi, h, exec_surroundings hi h]
  rfl

end Sys2Proof.Machine
end

section
/-! SUPPORT. The sink port (R161 to R163): which cycles dispatch a key press, and how far the sink's response reaches. -/

namespace Sys2Proof.Machine

/-! The key output registers in a cycle. -/

/-- The host access writes to CMD the word of a KH_UPDATE. -/
def WritesKhUpdate (op : Option BusOp) : Prop :=
  ∃ a v left right, op = some (.write a v) ∧ a &&& 0xFFC#12 = 0#12 ∧ decode v = .ok (.khUpdate left right)

theorem exec_khUpdate_key {left right : Byte} {s t : State} (h : exec (.khUpdate left right) s = .next t) :
    t.key.firePending = (s.key.firePending || t.res.fired) ∧ t.key.sinkErr = s.key.sinkErr := by
  have hsink : t.key.sinkErr = s.key.sinkErr := congrArg Surroundings.sinkErr (exec_surroundings rfl h)
  refine ⟨?_, hsink⟩
  obtain rfl := Host.Outcome.next.inj h
  rw [State.respond_key, State.respond_res, State.khStep_eq]
  exact KeyOut.ofHit_firePending ..

/-- No command but KH_UPDATE writes the key output registers (R161). -/
theorem exec_key_of_ne_khUpdate {i : Instr} {s t : State} (hi : ∀ left right, i ≠ .khUpdate left right)
    (h : exec i s = .next t) : t.key = s.key := by
  by_cases hconf : i.isConfiguration = true
  · exact (exec_configurationOnly hconf h).key
  cases i with
  | khUpdate left right => exact absurd rfl (hi left right)
  | stUpdate left right =>
    obtain rfl := Host.Outcome.next.inj h
    rfl
  | evalTriggers =>
    obtain rfl := Host.Outcome.next.inj h
    rfl
  | linkWrite len =>
    rcases State.guarded_cases h with ⟨-, -, rfl⟩ | ⟨-, -, rfl⟩ | ⟨-, rfl⟩
    · rw [State.respond_key, State.acceptWrite_eq, State.withLink_key, State.markIf_key]
    · rfl
    · rfl
  | linkRead cap =>
    rcases State.guarded_cases h with ⟨-, -, rfl⟩ | ⟨-, -, rfl⟩ | ⟨-, rfl⟩
    · rw [State.respond_key, State.acceptRead, State.withLink_key, State.markIf_key]
    · rfl
    · rfl
  | _ => exact absurd rfl hconf

/-- A write outside CMD leaves the key output registers (R82). -/
theorem State.hostWrite_key_of_ne_cmd {a : Addr} {v : Word} {s t : State} (ha : a &&& 0xFFC#12 ≠ 0#12)
    (h : s.hostWrite a v = .next t) : t.key = s.key := by
  unfold State.hostWrite at h
  cases hr : Reg.ofAddr a with
  | cmd =>
    have hoffset : (a &&& 0xFFC#12).toNat = 0x000 := Reg.at_of_ofAddr hr
    exact absurd (BitVec.eq_of_toNat_eq hoffset) ha
  | txWord k =>
    simp only [hr, State.storeTx_eq] at h
    obtain rfl := Host.Outcome.next.inj h
    rfl
  | _ =>
    simp only [hr] at h
    obtain rfl := Host.Outcome.next.inj h
    rfl

/-- What a write to CMD does to the key output registers: KH_UPDATE sets `fire_pending` if it fires, and any other word
leaves them. -/
theorem State.issueCommand_key {v : Word} {s t : State} (h : s.issueCommand v = .next t) :
    ((∃ left right, decode v = .ok (.khUpdate left right)) ∧
      t.key.firePending = (s.key.firePending || t.res.fired) ∧ t.key.sinkErr = s.key.sinkErr) ∨
    ((¬ ∃ left right, decode v = .ok (.khUpdate left right)) ∧ t.key = s.key) := by
  unfold State.issueCommand at h
  by_cases hkh : ∃ left right, decode v = .ok (.khUpdate left right)
  · obtain ⟨left, right, hv⟩ := hkh
    rw [hv] at h
    exact .inl ⟨⟨left, right, hv⟩, exec_khUpdate_key (s := s.withCmdLast v) h⟩
  · refine .inr ⟨hkh, ?_⟩
    cases hv : decode v with
    | error e =>
      simp only [hv] at h
      obtain rfl := Host.Outcome.next.inj h
      rfl
    | ok i =>
      simp only [hv] at h
      exact exec_key_of_ne_khUpdate (s := s.withCmdLast v) (fun left right e => hkh ⟨left, right, e ▸ hv⟩) h

/-- What a host access does to the key output registers: the write of a KH_UPDATE sets `fire_pending` if it fires, and
any other access leaves them. -/
theorem State.hostAccess_key {op : Option BusOp} {s t : State} (h : s.hostAccess op = .next t) :
    (WritesKhUpdate op ∧ t.key.firePending = (s.key.firePending || t.res.fired) ∧ t.key.sinkErr = s.key.sinkErr) ∨
    (¬ WritesKhUpdate op ∧ t.key = s.key) := by
  rcases op with _ | a | ⟨a, v⟩
  · obtain rfl := Host.Outcome.next.inj h
    exact .inr ⟨nofun, rfl⟩
  · obtain rfl := Host.Outcome.next.inj h
    exact .inr ⟨nofun, rfl⟩
  · change s.hostWrite a v = .next t at h
    by_cases ha : a &&& 0xFFC#12 = 0#12
    · rw [State.hostWrite, Reg.ofAddr_cmd ha] at h
      rcases State.issueCommand_key h with ⟨⟨left, right, hv⟩, hkey⟩ | ⟨hv, hkey⟩
      · exact .inl ⟨⟨a, v, left, right, rfl, ha, hv⟩, hkey⟩
      · refine .inr ⟨?_, hkey⟩
        rintro ⟨_, _, left, right, ⟨⟩, -, hkh⟩
        exact hv ⟨left, right, hkh⟩
    · refine .inr ⟨?_, State.hostWrite_key_of_ne_cmd ha h⟩
      rintro ⟨_, _, -, -, ⟨⟩, hcmd, -⟩
      exact ha hcmd

theorem State.endCycle_key (inp : CycleIn) (lv : Levels) (fire busy : Bool) (s : State) :
    (s.endCycle inp lv fire busy).key = { s.key with sinkErr := if fire then inp.sinkErrIn else s.key.sinkErr } := by
  rw [State.endCycle_eq_beside]
  exact State.sampleSink_key fire inp.sinkErrIn s

theorem State.endCycle_res (inp : CycleIn) (lv : Levels) (fire busy : Bool) (s : State) :
    (s.endCycle inp lv fire busy).res = s.res := by
  rw [State.endCycle_eq_beside, State.sampleSink_eq]
  rfl

/-- Settles O34: the cycle begins with `fire_pending` 0, the access sets it, and the end of the cycle samples the sink. -/
theorem keyFirePulsesOncePerDispatch : Obligations.KeyFirePulsesOncePerDispatch := by
  intro s t h
  obtain ⟨-, ⟨hrst, rfl⟩ | ⟨hrst, u, hu, rfl⟩⟩ := step_cases h
  · exact ⟨fun _ => ⟨rfl, rfl⟩, fun hno => absurd hrst (Bool.eq_false_iff.mp hno)⟩
  refine ⟨fun hyes => absurd hyes (Bool.eq_false_iff.mp hrst), fun _ => ?_⟩
  rw [State.endCycle_key, State.endCycle_res]
  rcases State.hostAccess_key hu with ⟨hwrites, hfire, hsink⟩ | ⟨hother, hkey⟩
  · obtain ⟨a, v, left, right, hbus, ha, hv⟩ := hwrites
    change u.key.firePending = u.res.fired at hfire
    refine ⟨?_, by rw [hsink]; rfl⟩
    rw [hfire]
    exact ⟨fun hfired => ⟨a, v, left, right, hbus, ha, hv, hfired⟩,
      fun ⟨_, _, _, _, _, _, _, hfired⟩ => hfired⟩
  · refine ⟨?_, by rw [hkey]; rfl⟩
    rw [hkey]
    exact ⟨nofun, fun ⟨a, v, left, right, hbus, ha, hv, _⟩ => absurd ⟨a, v, left, right, hbus, ha, hv⟩ hother⟩

/-! A cycle without what the sink said. -/

/-- The surroundings without what the sink said: `State.forgetSink` changes nothing else. -/
def Surroundings.forgetSink (b : Surroundings) : Surroundings :=
  { b with
    sinkErr := false
    env := { b.env with inputs := b.env.inputs.map fun inp => { inp with sinkErrIn := false }, busData := none } }

/-- The inputs of a cycle without the sink's response. -/
def CycleIn.forgetSink (inp : CycleIn) : CycleIn := { inp with sinkErrIn := false }

theorem State.guarded_forgetSink {ok : Bool} {f : State → State} {s : State}
    (hf : f s.forgetSink = (f s).forgetSink) :
    s.forgetSink.guarded ok f = onNext (s.guarded ok f) State.forgetSink := by
  have hbusy : s.forgetSink.busy = s.busy := rfl
  rw [State.guarded, State.guarded, hf, hbusy]
  cases ok
  · rfl
  · cases s.busy <;> rfl

/-- No command reads or changes what the sink said. -/
theorem exec_forgetSink (i : Instr) (s : State) : exec i s.forgetSink = onNext (exec i s) State.forgetSink := by
  cases hi : i.isLink with
  | false =>
    obtain ⟨t, ht⟩ := exec_next i s
    rw [ht]
    change exec i (s.around s.surroundings.forgetSink) = .next (t.around t.surroundings.forgetSink)
    rw [exec_around hi, ht, exec_surroundings hi ht]
    rfl
  | true =>
    cases i with
    | linkWrite len =>
      refine State.guarded_forgetSink ?_
      rw [State.acceptWrite_eq, State.acceptWrite_eq, State.markIf_eq, State.markIf_eq]
      rfl
    | linkRead cap =>
      refine State.guarded_forgetSink ?_
      rw [State.acceptRead, State.acceptRead, State.markIf_eq, State.markIf_eq]
      rfl
    | _ => cases hi

theorem State.issueCommand_forgetSink (v : Word) (s : State) :
    s.forgetSink.issueCommand v = onNext (s.issueCommand v) State.forgetSink := by
  unfold State.issueCommand
  cases decode v with
  | ok i => exact exec_forgetSink i (s.withCmdLast v)
  | error e => rfl

theorem State.hostAccess_forgetSink (op : Option BusOp) (s : State) :
    s.forgetSink.hostAccess op = onNext (s.hostAccess op) State.forgetSink := by
  rcases op with _ | a | ⟨a, v⟩
  · rfl
  · rfl
  · simp only [State.hostAccess, State.hostWrite]
    cases Reg.ofAddr a with
    | cmd => exact State.issueCommand_forgetSink v s
    | txWord k =>
      simp only [State.storeTx_eq]
      rfl
    | _ => rfl

theorem State.linkTick_forgetSink (s : State) : s.forgetSink.linkTick = s.linkTick.forgetSink := by
  have hother : s.forgetSink.linkTick = s.linkTick.beside s.forgetSink := State.linkTick_beside s s.forgetSink
  have hown : s.linkTick = s.linkTick.beside s := State.linkTick_beside s s
  rw [hother, hown]
  rfl

theorem State.endCycle_forgetSink (inp : CycleIn) (lv : Levels) (fire busy : Bool) (s : State) :
    s.forgetSink.endCycle inp.forgetSink lv fire busy = (s.endCycle inp lv fire busy).forgetSink := by
  have hsampled : (s.forgetSink.sampleSink fire inp.forgetSink.sinkErrIn).countDown =
      (s.sampleSink fire inp.sinkErrIn).countDown.forgetSink := by cases fire <;> rfl
  rw [State.endCycle_eq, State.endCycle_eq, hsampled]
  cases busy
  · rfl
  · exact congrArg (State.shiftSync lv) (State.linkTick_forgetSink _)

theorem State.nextInput_forgetSink (s : State) : s.forgetSink.nextInput = s.nextInput.forgetSink := by
  change (s.env.inputs.map CycleIn.forgetSink).headD CycleIn.quiet = (s.env.inputs.headD CycleIn.quiet).forgetSink
  cases s.env.inputs <;> rfl

/-- The rest of a cycle from the host access on. -/
theorem State.access_forgetSink (inp : CycleIn) (lv : Levels) (fire busy : Bool) (s : State) :
    onNext (onNext (s.hostAccess inp.bus) (State.endCycle inp lv fire busy)) State.forgetSink =
      onNext (s.forgetSink.hostAccess inp.bus) (State.endCycle inp.forgetSink lv fire busy) := by
  rw [State.hostAccess_forgetSink]
  cases s.hostAccess inp.bus with
  | next u => exact congrArg Host.Outcome.next (State.endCycle_forgetSink inp lv fire busy u).symm
  | fault r => rfl
  | refused r => rfl

/-- What was forgotten before a cycle's input is taken off the queue is forgotten after it. -/
theorem forgetSink_tail (inputs : List CycleIn) :
    ((inputs.map CycleIn.forgetSink).tail).map CycleIn.forgetSink = inputs.tail.map CycleIn.forgetSink := by
  rw [← List.map_tail, List.map_map]
  rfl

/-- The state with another queue of inputs. -/
def State.withInputs (inputs : List CycleIn) (s : State) : State := s.withEnv { s.env with inputs := inputs }

theorem State.beginCycle_forgetSink (inp : CycleIn) (s : State) :
    ((s.forgetSink.resolveWires inp.peer).beginCycle inp.forgetSink).forgetSink =
      ((s.resolveWires inp.peer).beginCycle inp).forgetSink :=
  congrArg (State.withInputs · ((s.resolveWires inp.peer).beginCycle inp).forgetSink) (forgetSink_tail s.env.inputs)

theorem State.resetCycle_forgetSink (inp : CycleIn) (s : State) :
    ((s.forgetSink.resolveWires inp.peer).resetCycle inp.forgetSink).forgetSink =
      ((s.resolveWires inp.peer).resetCycle inp).forgetSink :=
  congrArg (State.withInputs · ((s.resolveWires inp.peer).resetCycle inp).forgetSink) (forgetSink_tail s.env.inputs)

theorem step_of_not_inRange {s : State} (h : s.cfg.inRange = false) : step s = .refused .parameters :=
  if_neg (Bool.eq_false_iff.mp h)

/-- A step comes to the same without what the sink said, whether that is forgotten before the step or after it alone. -/
theorem step_forgetSink (s : State) :
    onNext (step s.forgetSink) State.forgetSink = onNext (step s) State.forgetSink := by
  have hnext := s.nextInput_forgetSink
  rcases Bool.eq_false_or_eq_true s.cfg.inRange with hrange | hrange
  · rcases Bool.eq_false_or_eq_true s.nextInput.rst with hrst | hrst
    · have hrst' : s.forgetSink.nextInput.rst = true := by rw [hnext]; exact hrst
      rw [step_reset hrange hrst, step_reset (s := s.forgetSink) hrange hrst', hnext]
      exact congrArg Host.Outcome.next (State.resetCycle_forgetSink s.nextInput s)
    · have hrst' : s.forgetSink.nextInput.rst = false := by rw [hnext]; exact hrst
      have hbegun := State.beginCycle_forgetSink s.nextInput s
      rw [step_access hrange hrst, step_access (s := s.forgetSink) hrange hrst', hnext, State.access_forgetSink,
        State.access_forgetSink]
      exact congrArg (fun u : State => onNext (u.hostAccess s.nextInput.bus) _) hbegun
  · rw [step_of_not_inRange hrange, step_of_not_inRange (s := s.forgetSink) hrange]

/-- Settles O35: both steps forget the sink as the step of the one forgotten state does. -/
theorem sinkResponseReachesOnlySinkErr : Obligations.SinkResponseReachesOnlySinkErr := by
  intro s t s' hsame h
  have hsteps : onNext (step s') State.forgetSink = .next t.forgetSink := by
    rw [← step_forgetSink, ← hsame, step_forgetSink, h]
    rfl
  exact onNext_cases hsteps

end Sys2Proof.Machine
end

section
/-! SUPPORT. Both endpoints of a pair stay sound under every way a pair goes on (R213, R276). -/

namespace Sys2Proof.Machine

/-! One cycle of an endpoint on given levels. -/

/-- What a clock cycle can do: a reset, or a host access between the beginning and the end of the cycle. -/
theorem State.clockCycle_cases {inp : CycleIn} {lv : Levels} {s t : State} (h : s.clockCycle inp lv = .next t) :
    (inp.rst = true ∧ t = s.resetCycle inp) ∨
    (inp.rst = false ∧ ∃ u, (s.beginCycle inp).hostAccess inp.bus = .next u ∧
      t = u.endCycle inp lv s.key.firePending s.busy) := by
  unfold State.clockCycle at h
  split at h
  next hrst => exact .inl ⟨hrst, (Host.Outcome.next.inj h).symm⟩
  next hrst =>
    obtain ⟨u, hu, rfl⟩ := onNext_cases h
    exact .inr ⟨Bool.eq_false_iff.mpr hrst, u, hu, rfl⟩

theorem State.Parts.endCycle {s : State} (hs : s.Parts) (inp : CycleIn) (lv : Levels) (fire busy : Bool) :
    (s.endCycle inp lv fire busy).Parts := by
  obtain ⟨k, e, ⟨-, hend⟩ | ⟨-, hend⟩⟩ := State.endCycle_cases inp lv fire busy s <;> rw [hend]
  · exact State.Parts.shiftSync (s := (s.withKey k).withEnv e) { hs with } lv
  · exact (State.Parts.linkTick (s := (s.withKey k).withEnv e) { hs with }).shiftSync lv

theorem State.endCycle_cfg (inp : CycleIn) (lv : Levels) (fire busy : Bool) (s : State) :
    (s.endCycle inp lv fire busy).cfg = s.cfg := by
  obtain ⟨k, e, ⟨-, hend⟩ | ⟨-, hend⟩⟩ := State.endCycle_cases inp lv fire busy s <;> rw [hend]
  · rfl
  · exact (State.linkOnly_linkTick _).cfg

/-- A cycle of an endpoint keeps its invariant and its parameters, whatever the levels of the wires. -/
theorem State.clockOn_sound {lv : Levels} {s t : State} (hs : s.Inv) (h : s.clockOn lv = .next t) :
    t.Inv ∧ t.cfg = s.cfg := by
  have hparts := s.inv_iff_parts.mp hs
  rw [t.inv_iff_parts]
  obtain ⟨-, rfl⟩ | ⟨-, u, hu, rfl⟩ := State.clockCycle_cases h
  · exact ⟨{ State.parts_resetWith hparts.inRange with }, rfl⟩
  · have heff := State.hostAccess_effect hu
    have hbegun : (s.beginCycle s.nextInput).Parts := { hparts with }
    exact ⟨(heff.parts hbegun).endCycle _ _ _ _, (State.endCycle_cfg _ _ _ _ u).trans heff.cfg⟩

theorem State.Inv.withNextRst {s : State} (hs : s.Inv) (r : Bool) : (s.withNextRst r).Inv := hs

/-! The pair. -/

/-- Both endpoints are sound and have the parameters of those of `p`. -/
structure Pair.SoundFrom (p q : Pair) : Prop where
  a : q.a.Inv
  b : q.b.Inv
  cfgA : q.a.cfg = p.a.cfg
  cfgB : q.b.cfg = p.b.cfg

theorem Pair.SoundFrom.edge {p q r : Pair} {w : Tick} (hq : p.SoundFrom q) (h : q.edge w = .next r) :
    p.SoundFrom r := by
  obtain ⟨-, s, hs, rfl⟩ | ⟨-, t, ht, rfl⟩ | ⟨-, s, t, hs, ht, rfl⟩ := Pair.edge_cases h
  · obtain ⟨hinv, hcfg⟩ := State.clockOn_sound hq.a hs
    exact ⟨hinv, hq.b, hcfg.trans hq.cfgA, hq.cfgB⟩
  · obtain ⟨hinv, hcfg⟩ := State.clockOn_sound hq.b ht
    exact ⟨hq.a, hinv, hq.cfgA, hcfg.trans hq.cfgB⟩
  · obtain ⟨hinvA, hcfgA⟩ := State.clockOn_sound hq.a hs
    obtain ⟨hinvB, hcfgB⟩ := State.clockOn_sound hq.b ht
    exact ⟨hinvA, hinvB, hcfgA.trans hq.cfgA, hcfgB.trans hq.cfgB⟩

theorem Pair.SoundFrom.tick {p q r : Pair} {k : Clocks} {w : Tick} (hq : p.SoundFrom q) (h : q.tick k w = .next r) :
    p.SoundFrom r :=
  hq.edge (Pair.tick_cases h).2

theorem Pair.SoundFrom.lockstep {p q r : Pair} (hq : p.SoundFrom q) (h : q.lockstep = .next r) : p.SoundFrom r := by
  obtain ⟨-, s, t, hs, ht, rfl⟩ := Pair.lockstep_cases h
  obtain ⟨hinvA, hcfgA⟩ := State.clockOn_sound (hq.a.withNextRst q.commonRst) hs
  obtain ⟨hinvB, hcfgB⟩ := State.clockOn_sound (hq.b.withNextRst q.commonRst) ht
  exact ⟨hinvA, hinvB, hcfgA.trans hq.cfgA, hcfgB.trans hq.cfgB⟩

/-- Settles O60: each way a pair goes on is made of its endpoints' cycles, and R276's runs of edges by induction. -/
theorem pairTicksKeepSoundness : Obligations.PairTicksKeepSoundness := by
  intro p q ha hb hgoes
  have hp : p.SoundFrom p := ⟨ha, hb, rfl, rfl⟩
  have hq : p.SoundFrom q := by
    obtain ⟨k, w, h⟩ | h | h := hgoes
    · exact hp.tick h
    · exact hp.lockstep h
    · exact h.induction (fun _ _ _ _ hu hv => hu.tick hv) hp
  exact ⟨hq.a, hq.b, hq.cfgA, hq.cfgB⟩

end Sys2Proof.Machine
end

section
/-! SUPPORT. The frame (R174 to R177): the bits of a byte, how long a stuffed payload is, and that it holds no run of
ones that a reader could take for the end marker. -/

namespace Sys2Proof.Machine

/-! Bits and lengths. -/

/-- Settles O39: the list of eight positions, written out. -/
theorem byteBitsInWireOrder : Obligations.ByteBitsInWireOrder := fun _ => ⟨rfl, rfl⟩

theorem length_byteBits (o : BitOrder) (b : Byte) : (byteBits o b).length = 8 := by
  cases o <;> rfl

theorem length_payloadBits (o : BitOrder) (d : List Byte) : (d.flatMap (byteBits o)).length = 8 * d.length := by
  simp [List.length_flatMap, length_byteBits, Nat.mul_comm]

/-- A stuffed sequence is longer by one bit at most for every five bits, the `ones` just sent counted among them. -/
theorem length_stuffFrom (u : List Bool) {ones : Nat} (h : ones < 5) :
    u.length ≤ (stuffFrom ones u).length ∧ (stuffFrom ones u).length ≤ u.length + (ones + u.length) / 5 := by
  induction u generalizing ones with
  | nil => simp [stuffFrom]
  | cons x u ih =>
    have hzero := ih (ones := 0) (by decide)
    cases x with
    | false =>
      simp [stuffFrom]
      omega
    | true =>
      by_cases hfive : ones + 1 = 5
      · simp [stuffFrom, hfive]
        omega
      · have hmore := ih (ones := ones + 1) (by omega)
        simp [stuffFrom, hfive]
        omega

/-- Settles O41: the payload's `8n` bits stuffed, and the eight bits of the end marker. -/
theorem frameLengthBounds : Obligations.FrameLengthBounds := by
  intro o d
  have hstuff := length_stuffFrom (d.flatMap (byteBits o)) (ones := 0) (by decide)
  rw [length_payloadBits] at hstuff
  simp only [frame, stuff, endMarker, List.length_append, List.length_cons, List.length_nil]
  omega

/-! Runs of ones. -/

theorem ones_prefix_append_zero {k : Nat} {a b : List Bool} (h : List.replicate k true <+: a ++ false :: b) :
    List.replicate k true <+: a := by
  induction a generalizing k with
  | nil => cases k <;> simp [List.replicate_succ] at h ⊢
  | cons x a ih =>
    cases k with
    | zero => simp
    | succ k =>
      rw [List.replicate_succ, List.cons_append, List.cons_prefix_cons] at h
      rw [List.replicate_succ, List.cons_prefix_cons]
      exact h.imp_right ih

theorem ones_suffix_append_zero {k : Nat} {a b : List Bool} (h : List.replicate k true <:+ a ++ false :: b) :
    List.replicate k true <:+ b := by
  rw [← List.reverse_prefix, List.reverse_replicate] at h ⊢
  rw [List.reverse_append, List.reverse_cons, List.append_assoc] at h
  exact ones_prefix_append_zero h

/-- A run of ones does not reach over a 0: it lies before it or after it. -/
theorem ones_infix_append_zero {k : Nat} {a b : List Bool} (h : List.replicate k true <:+: a ++ false :: b) :
    List.replicate k true <:+: a ∨ List.replicate k true <:+: b := by
  induction a with
  | nil =>
    obtain hpre | hin := List.infix_cons_iff.mp h
    · exact .inl (ones_prefix_append_zero (a := []) hpre).isInfix
    · exact .inr hin
  | cons x a ih =>
    obtain hpre | hin := List.infix_cons_iff.mp h
    · exact .inl (ones_prefix_append_zero (a := x :: a) hpre).isInfix
    · exact (ih hin).imp_left (List.infix_cons ·)

/-- The bits hold no six ones in a row and do not end in five, so that the end marker after them is the first place with
six (R177). -/
def NoFlag (bits : List Bool) : Prop := ¬ List.replicate 6 true <:+: bits ∧ ¬ List.replicate 5 true <:+ bits

theorem noFlag_ones {n : Nat} (h : n < 5) : NoFlag (List.replicate n true) := by
  constructor <;> intro hrun <;> have hlen := hrun.length_le <;> simp at hlen <;> omega

theorem NoFlag.ones_append_zero {n : Nat} {bits : List Bool} (h : n < 6) (hbits : NoFlag bits) :
    NoFlag (List.replicate n true ++ false :: bits) := by
  obtain ⟨hnoSix, hnoFive⟩ := hbits
  refine ⟨fun hsix => ?_, fun hfive => hnoFive (ones_suffix_append_zero hfive)⟩
  obtain hin | hin := ones_infix_append_zero hsix
  · have hlen := hin.length_le
    simp at hlen
    omega
  · exact hnoSix hin

/-- With the ones just sent before it, a stuffed sequence shows no flag. -/
theorem noFlag_stuffFrom (u : List Bool) {ones : Nat} (h : ones < 5) :
    NoFlag (List.replicate ones true ++ stuffFrom ones u) := by
  induction u generalizing ones with
  | nil => simpa [stuffFrom] using noFlag_ones h
  | cons x u ih =>
    have hrest : NoFlag (stuffFrom 0 u) := ih (ones := 0) (by decide)
    cases x with
    | false => simpa [stuffFrom] using hrest.ones_append_zero (n := ones) (by omega)
    | true =>
      have hone (bits : List Bool) :
          List.replicate ones true ++ true :: bits = List.replicate (ones + 1) true ++ bits := by
        simp [List.replicate_succ']
      by_cases hfive : ones + 1 = 5
      · simpa [stuffFrom, hfive, hone] using hrest.ones_append_zero (n := 5) (by decide)
      · simpa [stuffFrom, hfive, hone] using ih (ones := ones + 1) (by omega)

/-- Settles O40: from the start of a payload no ones have been sent. -/
theorem stuffedPayloadNeverShowsTheFlag : Obligations.StuffedPayloadNeverShowsTheFlag :=
  ⟨fun u => noFlag_stuffFrom u (ones := 0) (by decide), fun _ _ => rfl⟩

end Sys2Proof.Machine
end

section
/-! SUPPORT. One destuff step as one record (R187, R190), and the whole frame (R187 to R193). -/

namespace Sys2Proof.Machine

/-- The bit shifted in at the low end, the byte's first bit having come first (R174, R187). -/
theorem shiftIn_msbFirst (x : Bool) (sr : Byte) : shiftIn .msbFirst x sr = sr.extractLsb' 0 7 ++ BitVec.ofBool x := by
  apply BitVec.eq_of_getLsbD_eq
  intro i hi
  rw [BitVec.getLsbD_append]
  interval_cases i <;> simp [shiftIn]

/-- The bit shifted in at the high end, the byte's last bit having come first (R174, R187). -/
theorem shiftIn_lsbFirst (x : Bool) (sr : Byte) : shiftIn .lsbFirst x sr = BitVec.ofBool x ++ sr.extractLsb' 1 7 := by
  apply BitVec.eq_of_getLsbD_eq
  intro i hi
  rw [BitVec.getLsbD_append]
  interval_cases i <;> simp [shiftIn]

/-- A state that differs in what the link state machine may change, by those parts. -/
theorem State.LinkOnly.eq_record {s t : State} (h : s.LinkOnly t) (henv : t.env = s.env) :
    t = { s with link := t.link, rxBuf := t.rxBuf } := by
  obtain ⟨hcfg, hhost, htracker, hkh, hres, hkey, hlayers, hsync, htx, -⟩ := h
  rw [← hcfg, ← hhost, ← htracker, ← hkh, ← hres, ← hkey, ← hlayers, ← hsync, ← htx, ← henv]

/-- A data bit, whole (R187, R190). -/
theorem State.takeBit_eq (x : Bool) (s : State) :
    s.takeBit x = { s with
      link := { s.link with
        rSr := shiftIn s.cfg.bitOrder x s.link.rSr
        rOnes := if x then s.link.rOnes + 1#3 else 0#3
        rNbits := if s.link.rNbits = 7#3 then 0#3 else s.link.rNbits + 1#3
        rCount := if s.link.rNbits = 7#3 ∧ s.link.rCount.toNat < 255 then s.link.rCount + 1#8 else s.link.rCount }
      rxBuf := if s.link.rNbits = 7#3 ∧ s.link.rCount.toNat < s.link.rCap.toNat
        then Memory.write s.rxBuf s.link.rCount.toNat (shiftIn s.cfg.bitOrder x s.link.rSr) else s.rxBuf } := by
  obtain ⟨hkept, henv, hlink⟩ := State.takeBit_frame x s
  rw [hkept.eq_record henv, hlink, State.takeBit_rCount, State.takeBit_rNbits, State.takeBit_rxBuf]
  rfl

/-- Settles O43: after a sixth one the bit ends the frame, after a fifth it is a stuff bit or the sixth, and every other
bit is data. -/
theorem destuffStep : Obligations.DestuffStep := by
  intro x s
  refine ⟨?_, ?_, ?_, ?_, fun htail hones => ?_⟩
  · rintro htail rfl
    simp [State.destuff, htail]
  · rintro htail rfl
    exact State.destuff_tail htail
  · rintro htail hones rfl
    exact State.destuff_stuffBit htail hones
  · rintro htail hones rfl
    exact State.destuff_sixth_one htail hones
  · rw [State.destuff_data htail hones, State.takeBit_eq]
    cases s.cfg.bitOrder
    · rw [shiftIn_msbFirst]
    · rw [shiftIn_lsbFirst]

/-- Settles O42, by the destuffing of a whole frame. -/
theorem destuffingRecoversTheFrame : Obligations.DestuffingRecoversTheFrame :=
  fun d _ hcount hnbits hones htail => State.destuffAll_frame d hcount hnbits hones htail

end Sys2Proof.Machine
end

section
/-! SUPPORT. The link commands (R178 to R186) and the link state machine's transitions (R194 to R208), each with its
whole next state. -/

namespace Sys2Proof.Machine

/-! The link commands. -/

/-- The two refusals of a link command with a length operand (R178, R179). -/
theorem State.guarded_refused (n : Byte) (f : State → State) (s : State) :
    (s.cfg.linkBuf < n.toNat → s.guarded (lengthOk s.cfg n) f = .next (s.respond .illegalArgument)) ∧
    (n.toNat ≤ s.cfg.linkBuf → s.link.lstate ≠ .idle →
      s.guarded (lengthOk s.cfg n) f = .next (s.respond .pinsBusy)) := by
  refine ⟨fun hlen => ?_, fun hlen hbusy => ?_⟩
  · simp [State.guarded, lengthOk, Nat.not_le.mpr hlen]
  · simp [State.guarded, lengthOk, hlen, State.busy, hbusy]

/-- Settles O37: the guard's refusals; an accepted write goes by the level of `clk_in`. -/
theorem linkWriteResult : Obligations.LinkWriteResult := by
  intro len s marked
  obtain ⟨hlong, hbusy⟩ := s.guarded_refused len (State.acceptWrite len)
  refine ⟨hlong, hbusy, fun hlen hidle hclk => (exec_linkWrite_of_idle hlen hidle).trans ?_,
    fun hlen hidle hclk => (exec_linkWrite_of_idle hlen hidle).trans ?_⟩
  · simp only [State.acceptWrite_eq, State.markIf_eq, hclk, decide_eq_true_eq]
    rfl
  · simp only [State.acceptWrite_eq, State.markIf_eq, hclk, decide_eq_true_eq]
    rfl

/-- Settles O38: the guard's refusals; an accepted read clears the reader's registers. -/
theorem linkReadResult : Obligations.LinkReadResult := by
  intro cap s
  obtain ⟨hlong, hbusy⟩ := s.guarded_refused cap (State.acceptRead cap)
  refine ⟨hlong, hbusy, fun hcap hidle => (exec_linkRead_of_idle hcap hidle).trans ?_⟩
  simp only [State.acceptRead, State.markIf_eq, decide_eq_true_eq]
  rfl

/-! The waits and the fixed phases. -/

theorem State.boundedWait_of_true (leave : State → State) (s : State) : s.boundedWait true leave = leave s := rfl

/-- A failed poll, below the TIMEOUT-th and the TIMEOUT-th (R194). -/
theorem State.boundedWait_of_false (leave : State → State) (s : State) :
    (s.link.tmo.toNat + 1 ≠ s.cfg.timeout →
      s.boundedWait false leave = s.withLink { s.link with tmo := s.link.tmo + 1#16 }) ∧
    (s.link.tmo.toNat + 1 = s.cfg.timeout → s.boundedWait false leave = s.failTimeout) :=
  ⟨fun h => by simp [State.boundedWait, h], fun h => by simp [State.boundedWait, h]⟩

/-- A cycle of a fixed phase, before the last one and the last one (R198, R199, R202). -/
theorem State.fixedPhase_spec (n : Nat) (leave : State → State) (s : State) :
    (s.link.dly.toNat + 1 ≠ n → s.fixedPhase n leave = s.withLink { s.link with dly := s.link.dly + 1#16 }) ∧
    (s.link.dly.toNat + 1 = n → s.fixedPhase n leave = leave s) :=
  ⟨fun h => if_neg h, fun h => if_pos h⟩

/-- `fail(Timeout)`, whole (R207). -/
theorem State.failTimeout_eq (s : State) :
    s.failTimeout = { s with
      link := { s.link with
        pads := Pads.released, result := .timeout, lstate := .idle
        count := if s.link.lstate.isRead then s.link.rCount else 0#8 }
      env := { s.env with
        rereadWait := if s.link.lstate.isRead then s.cfg.rereadCycles else s.env.rereadWait } } := by
  unfold State.failTimeout
  split <;> rfl

/-- `complete(e)`, whole (R205). -/
theorem State.completeRead_eq (e : Result) (s : State) :
    s.completeRead e = { s with
      link := { s.link with pads := Pads.released, result := e, count := s.link.rCount, lstate := .idle }
      env := { s.env with rereadWait := if e = .ok then s.env.rereadWait else s.cfg.rereadCycles } } := by
  unfold State.completeRead
  split <;> rfl

/-- A bounded state's condition does not hold in this cycle (R196, R197, R201, R203, R204). -/
def State.PollFails (s : State) : Prop :=
  (s.link.lstate = .wWaitLow ∧ s.datIn = true) ∨ (s.link.lstate = .wWaitHigh ∧ s.datIn = false) ∨
  (s.link.lstate = .rWaitReq ∧ s.clkIn = true) ∨ (s.link.lstate = .rWaitHigh ∧ s.clkIn = false) ∨
  (s.link.lstate = .rWaitLow ∧ s.clkIn = true)

theorem State.PollFails.linkTick {s : State} (h : s.PollFails) : ∃ leave, s.linkTick = s.boundedWait false leave := by
  rcases h with ⟨hl, hin⟩ | ⟨hl, hin⟩ | ⟨hl, hin⟩ | ⟨hl, hin⟩ | ⟨hl, hin⟩
  · exact ⟨_, by rw [State.linkTick_wWaitLow hl, hin]; rfl⟩
  · exact ⟨_, by rw [State.linkTick_wWaitHigh hl, hin]⟩
  · exact ⟨_, by rw [State.linkTick_rWaitReq hl, hin]; rfl⟩
  · exact ⟨_, by rw [State.linkTick_rWaitHigh hl, hin]⟩
  · exact ⟨_, by rw [State.linkTick_rWaitLow hl, hin]; rfl⟩

theorem State.PollFails.isRead_iff {s : State} (h : s.PollFails) :
    s.link.lstate.isRead = true ↔
      s.link.lstate = .rWaitReq ∨ s.link.lstate = .rWaitHigh ∨ s.link.lstate = .rWaitLow := by
  rcases h with ⟨hl, -⟩ | ⟨hl, -⟩ | ⟨hl, -⟩ | ⟨hl, -⟩ | ⟨hl, -⟩ <;> simp [hl, LState.isRead]

/-- The cycle of a failed poll, below the TIMEOUT-th and the TIMEOUT-th (R194, R207). -/
theorem State.PollFails.linkTick_eq {s : State} (h : s.PollFails) :
    (s.link.tmo.toNat + 1 ≠ s.cfg.timeout → s.linkTick = s.withLink { s.link with tmo := s.link.tmo + 1#16 }) ∧
    (s.link.tmo.toNat + 1 = s.cfg.timeout → s.linkTick = s.failTimeout) := by
  obtain ⟨leave, htick⟩ := h.linkTick
  rw [htick]
  exact State.boundedWait_of_false leave s

/-- Settles O44: a failed poll counts or fails with Timeout, in each of the five states alike. -/
theorem boundedWaitsCountAndTimeOut : Obligations.BoundedWaitsCountAndTimeOut := by
  intro s (hpoll : s.PollFails)
  obtain ⟨hcount, hfail⟩ := hpoll.linkTick_eq
  refine ⟨hcount, fun h => ⟨(hfail h).trans ?_, rfl⟩⟩
  simp only [State.failTimeout_eq, hpoll.isRead_iff]
  rfl

/-! The transitions. -/

/-- Settles O45: each state's wait or phase, and what its end does. -/
theorem writerTransitions : Obligations.WriterTransitions := by
  intro s
  obtain ⟨hsetup, hsetupEnd⟩ := s.fixedPhase_spec s.cfg.tSetup State.leaveSetup
  obtain ⟨hhigh, hhighEnd⟩ := s.fixedPhase_spec s.cfg.tHigh State.leaveHigh
  refine ⟨fun hl hdat => ?_, fun hl hdat => ?_, fun hl h => (State.linkTick_wSetup hl).trans (hsetup h),
    fun hl h => (State.linkTick_wSetup hl).trans (hsetupEnd h), fun hl h => (State.linkTick_wHigh hl).trans (hhigh h),
    fun hl h hp => (State.linkTick_wHigh hl).trans ((hhighEnd h).trans ?_),
    fun hl h hp => (State.linkTick_wHigh hl).trans ((hhighEnd h).trans ?_)⟩
  · rw [State.linkTick_wWaitLow hl, hdat]
    rfl
  · rw [State.linkTick_wWaitHigh hl, hdat]
    rfl
  · obtain ⟨-, hnext⟩ | ⟨hlast, -⟩ := s.leaveHigh_cases
    · exact hnext
    · omega
  · obtain ⟨hmore, -⟩ | ⟨-, hdone⟩ := s.leaveHigh_cases
    · omega
    · exact hdone

/-- Settles O46: each state's wait or phase, and what its end does; a sampled bit goes by what destuffing answers. -/
theorem readerTransitions : Obligations.ReaderTransitions := by
  intro s
  obtain ⟨hready, hreadyEnd⟩ := s.fixedPhase_spec s.cfg.tReady State.leaveReady
  refine ⟨fun hl hclk => ?_, fun hl h => (State.linkTick_rReady hl).trans (hready h),
    fun hl h => (State.linkTick_rReady hl).trans (hreadyEnd h), fun hl hclk => ?_, fun hl hclk => ?_⟩
  · rw [State.linkTick_rWaitReq hl, hclk]
    rfl
  · rw [State.linkTick_rWaitHigh hl, hclk, State.boundedWait_of_true, State.sampleBit]
    refine ⟨fun t hd => by rw [hd]; rfl, fun t e hd => ?_⟩
    rw [hd]
    exact t.completeRead_eq e
  · rw [State.linkTick_rWaitLow hl, hclk]
    rfl

end Sys2Proof.Machine
end

section
/-! SUPPORT. One step without reset, seen from the link unit: what it does to the link registers, the synchronisers and
the queue of inputs; and runs of steps. -/

namespace Sys2Proof.Machine

/-! The step. -/

/-- What the host access of a cycle without reset makes of the state, where the rest of the cycle finds it. -/
structure State.Accessed (s v : State) : Prop where
  cfg : v.cfg = s.cfg
  link : s.link.Begin s.cfg v.link
  sync : v.sync = s.sync
  rxBuf : v.rxBuf = s.rxBuf
  inputs : v.env.inputs = s.env.inputs.tail

theorem State.hostAccess_inputs {op : Option BusOp} {s t : State} (h : s.hostAccess op = .next t) :
    t.env.inputs = s.env.inputs := by
  rcases State.hostAccess_cases h with rfl | ⟨v, rfl⟩ | ⟨v, rfl⟩ | ⟨k, v, rfl⟩ | ⟨v, i, -, he⟩ | ⟨v, e, -, rfl⟩
  · rfl
  · rfl
  · rfl
  · rw [State.storeTx_eq, State.withTxBuf_env]
  · rw [(exec_frame he).env, State.withCmdLast_env]
  · rfl

/-- A step without reset: the access, then the link state machine if the unit was busy, then the synchronisers. -/
theorem step_linkCases {s t : State} (h : step s = .next t) (hrst : s.nextInput.rst = false) :
    ∃ v, s.Accessed v ∧
      ((s.link.lstate = .idle ∧ t = v.shiftSync (wireLevels s.link.pads s.nextInput.peer s.env.draws)) ∨
       (s.link.lstate ≠ .idle ∧
        t = v.linkTick.shiftSync (wireLevels s.link.pads s.nextInput.peer s.env.draws))) := by
  obtain ⟨-, ⟨hreset, -⟩ | ⟨-, u, hu, rfl⟩⟩ := step_cases h
  · rw [hrst] at hreset
    cases hreset
  · have heff := State.hostAccess_effect hu
    have hin : ((u.sampleSink s.key.firePending s.nextInput.sinkErrIn).countDown).env.inputs = s.env.inputs.tail := by
      rw [State.sampleSink_eq]
      exact State.hostAccess_inputs hu
    refine ⟨(u.sampleSink s.key.firePending s.nextInput.sinkErrIn).countDown, ?_, ?_⟩
    · rw [State.sampleSink_eq] at hin ⊢
      exact ⟨heff.cfg, heff.link, heff.sync, heff.rxBuf, hin⟩
    · rw [State.endCycle_eq]
      by_cases hidle : s.link.lstate = .idle
      · exact .inl ⟨hidle, by simp [State.busy, hidle]⟩
      · exact .inr ⟨hidle, by simp [State.busy, hidle]⟩

/-- An idle unit's registers change by a link command alone (R195, R238). -/
theorem step_link_of_idle {s t : State} (h : step s = .next t) (hrst : s.nextInput.rst = false)
    (hidle : s.link.lstate = .idle) : s.link.Begin s.cfg t.link := by
  obtain ⟨v, hv, ⟨-, rfl⟩ | ⟨hbusy, -⟩⟩ := step_linkCases h hrst
  · exact hv.link
  · exact absurd hidle hbusy

/-- A busy unit takes a cycle of its state machine, whatever the host does (R178, R238). -/
theorem step_link_of_busy {s t : State} (h : step s = .next t) (hrst : s.nextInput.rst = false)
    (hbusy : s.link.lstate ≠ .idle) : ∃ v, s.SameLink v ∧ t.link = v.linkTick.link := by
  obtain ⟨v, hv, ⟨hidle, -⟩ | ⟨-, rfl⟩⟩ := step_linkCases h hrst
  · exact absurd hidle hbusy
  · exact ⟨v, ⟨hv.cfg, hv.link.eq_of_busy hbusy, hv.sync, hv.rxBuf⟩, rfl⟩

/-- The synchronisers take the wires' levels, and the queue of inputs goes on (R172, log 1). -/
theorem step_sync {s t : State} (h : step s = .next t) (hrst : s.nextInput.rst = false) :
    t.sync = s.sync.shift s.cfg.syncStages (wireLevels s.link.pads s.nextInput.peer s.env.draws) ∧
    t.env.inputs = s.env.inputs.tail := by
  obtain ⟨v, hv, ⟨-, rfl⟩ | ⟨-, rfl⟩⟩ := step_linkCases h hrst
  · refine ⟨?_, hv.inputs⟩
    rw [← hv.sync, ← hv.cfg]
    rfl
  · have hkept := State.linkOnly_linkTick v
    constructor
    · rw [← hv.sync, ← hv.cfg, ← hkept.sync, ← hkept.cfg]
      rfl
    · rw [← hv.inputs]
      exact (congrArg Env.inputs hkept.env :)

/-! How a transaction's cycle leaves the link unit. -/

/-- A transaction goes on with RESULT as it was, or ends: both lines released (R206), RESULT not Other (R211). -/
inductive Link.Progress (l k : Link) : Prop where
  | onward (hbusy : k.lstate ≠ .idle) (hresult : k.result = l.result)
  | ended (hidle : k.lstate = .idle) (hpads : k.pads = Pads.released) (hresult : k.result ≠ .other)

theorem State.failTimeout_progress (s : State) : s.link.Progress s.failTimeout.link := by
  rw [State.failTimeout_link]
  exact .ended rfl rfl nofun

theorem State.sampleBit_progress (s : State) : s.link.Progress s.sampleBit.link := by
  rcases State.sampleBit_cases s with ⟨t, e, hd, h⟩ | ⟨t, hd, h⟩ <;> rw [h]
  · rw [State.completeRead_link]
    exact .ended rfl rfl (State.destuff_code hd)
  · obtain ⟨-, -, hlink⟩ := State.destuff_frame s.datIn s
    rw [hd] at hlink
    exact .onward nofun (congrArg Link.result hlink :)

theorem State.leaveHigh_progress (s : State) : s.link.Progress s.leaveHigh.link := by
  obtain ⟨-, h⟩ | ⟨-, h⟩ := s.leaveHigh_cases <;> rw [h]
  · exact .onward nofun rfl
  · exact .ended rfl rfl nofun

theorem State.boundedWait_progress {cond : Bool} {leave : State → State} {s : State} (hbusy : s.link.lstate ≠ .idle)
    (hleave : s.link.Progress (leave s).link) : s.link.Progress (s.boundedWait cond leave).link := by
  rcases State.boundedWait_cases cond leave s with ⟨-, e⟩ | ⟨-, -, e⟩ | ⟨-, -, e⟩ <;> rw [e]
  · exact hleave
  · exact s.failTimeout_progress
  · exact .onward hbusy rfl

theorem State.fixedPhase_progress {n : Nat} {leave : State → State} {s : State} (hbusy : s.link.lstate ≠ .idle)
    (hleave : s.link.Progress (leave s).link) : s.link.Progress (s.fixedPhase n leave).link := by
  rcases State.fixedPhase_cases n leave s with ⟨-, e⟩ | ⟨-, e⟩ <;> rw [e]
  · exact hleave
  · exact .onward hbusy rfl

/-- A cycle of the link state machine in any state but IDLE. -/
theorem State.linkTick_progress {s : State} (hbusy : s.link.lstate ≠ .idle) : s.link.Progress s.linkTick.link := by
  cases hl : s.link.lstate with
  | idle => exact absurd hl hbusy
  | wWaitLow =>
    rw [State.linkTick_wWaitLow hl]
    exact State.boundedWait_progress hbusy (.onward nofun rfl)
  | wWaitHigh =>
    rw [State.linkTick_wWaitHigh hl]
    exact State.boundedWait_progress hbusy (.onward nofun rfl)
  | wSetup =>
    rw [State.linkTick_wSetup hl]
    exact State.fixedPhase_progress hbusy (.onward nofun rfl)
  | wHigh =>
    rw [State.linkTick_wHigh hl]
    exact State.fixedPhase_progress hbusy s.leaveHigh_progress
  | rWaitReq =>
    rw [State.linkTick_rWaitReq hl]
    exact State.boundedWait_progress hbusy (.onward nofun rfl)
  | rReady =>
    rw [State.linkTick_rReady hl]
    exact State.fixedPhase_progress hbusy (.onward nofun rfl)
  | rWaitHigh =>
    rw [State.linkTick_rWaitHigh hl]
    exact State.boundedWait_progress hbusy s.sampleBit_progress
  | rWaitLow =>
    rw [State.linkTick_rWaitLow hl]
    exact State.boundedWait_progress hbusy (.onward nofun rfl)

/-- A busy unit's step without reset. -/
theorem step_progress {s t : State} (h : step s = .next t) (hrst : s.nextInput.rst = false)
    (hbusy : s.link.lstate ≠ .idle) : s.link.Progress t.link := by
  obtain ⟨v, hv, hlink⟩ := step_link_of_busy h hrst hbusy
  rw [← hv.link] at hbusy ⊢
  rw [hlink]
  exact State.linkTick_progress hbusy

/-- A step with reset gives the link unit its reset values (R260). -/
theorem step_link_of_reset {s t : State} (h : step s = .next t) (hrst : s.nextInput.rst = true) :
    t.link = Link.reset := by
  obtain ⟨-, ⟨-, rfl⟩ | ⟨hno, -⟩⟩ := step_cases h
  · rfl
  · rw [hrst] at hno
    cases hno

/-- Settles O47: a busy unit gets to IDLE by a reset or by the end of its transaction, an idle one stays there by no
command or by AlreadyWriting. -/
theorem linesReleasedOnEveryExit : Obligations.LinesReleasedOnEveryExit := by
  intro s t h hidle
  refine ⟨fun hbusy => ?_, fun hstart hrst => ?_⟩
  · have hpads : t.link.pads = Pads.released := by
      rcases Bool.eq_false_or_eq_true s.nextInput.rst with hrst | hrst
      · rw [step_link_of_reset h hrst]
        rfl
      · cases step_progress h hrst hbusy with
        | onward hstill _ => exact absurd hidle hstill
        | ended _ hpads _ => exact hpads
    rw [hpads]
    exact ⟨rfl, rfl, rfl, rfl⟩
  · have hbegin := step_link_of_idle h hrst hstart
    generalize t.link = l at hbegin hidle ⊢
    cases hbegin with
    | keep => rfl
    | write _ _ => cases hidle
    | alreadyWriting _ => rfl
    | read _ _ => cases hidle

theorem Link.Begin.result_ne_other {c : Config} {l k : Link} (h : l.Begin c k) (hl : l.result ≠ .other) :
    k.result ≠ .other := by
  cases h with
  | keep => exact hl
  | write _ _ => exact nofun
  | alreadyWriting _ => exact nofun
  | read _ _ => exact nofun

theorem Result.code_ne_six {r : Result} (h : r ≠ .other) : r.code ≠ 6#4 := by
  cases r with
  | other => exact absurd rfl h
  | _ => decide

/-- Settles O48: neither a reset, nor a link command, nor the end of a transaction gives Other. -/
theorem otherIsNeverRaised : Obligations.OtherIsNeverRaised := by
  intro s t hs h
  have ht : t.link.result ≠ .other := by
    rcases Bool.eq_false_or_eq_true s.nextInput.rst with hrst | hrst
    · rw [step_link_of_reset h hrst]
      nofun
    · by_cases hidle : s.link.lstate = .idle
      · exact (step_link_of_idle h hrst hidle).result_ne_other hs
      · cases step_progress h hrst hidle with
        | onward _ hresult => rwa [hresult]
        | ended _ _ hresult => exact hresult
  exact ⟨ht, Result.code_ne_six ht⟩

end Sys2Proof.Machine
end

section
/-! SUPPORT. Runs of steps: the synchronisers' delay (R172) and a request that nobody answers (R194, R207, R208). -/

namespace Sys2Proof.Machine

/-! Runs. -/

section
variable {M : Host.Core} {n : Nat} {s t : M.State}

/-- A run one step longer, by its first step. -/
theorem run_succ_cases (h : M.run (n + 1) s = .next t) : ∃ u, M.step s = .next u ∧ M.run n u = .next t := by
  rw [Host.Core.run] at h
  split at h
  · exact ⟨_, ‹_›, h⟩
  · cases h
  · cases h

/-- A run one step longer, by its last step. -/
theorem run_succ_of_next (h : M.run n s = .next t) : M.run (n + 1) s = M.step t := by
  induction n generalizing s with
  | zero =>
    cases h
    rw [Host.Core.run]
    cases M.step t <;> rfl
  | succ n ih =>
    obtain ⟨u, hu, ht⟩ := run_succ_cases h
    rw [Host.Core.run, hu]
    exact ih ht

end

/-! The synchronisers. -/

/-- A queue whose next inputs hold no reset gives a cycle without reset. -/
theorem State.nextInput_rst_of_take {n : Nat} {s : State} (h : ∀ inp ∈ s.env.inputs.take (n + 1), inp.rst = false) :
    s.nextInput.rst = false ∧ ∀ inp ∈ s.env.inputs.tail.take n, inp.rst = false := by
  rw [State.nextInput]
  cases hq : s.env.inputs with
  | nil => simp [CycleIn.quiet]
  | cons inp rest =>
    rw [hq, List.take_succ_cons, List.forall_mem_cons] at h
    exact h

/-- The stages one step on: the first holds the wire's level, every other what the one before it held (R172). -/
theorem step_stages {s t : State} (h : step s = .next t) (hrst : s.nextInput.rst = false) {i : Nat}
    (hi : i < s.cfg.syncStages) :
    t.sync.clk.getD i true =
      ((wireLevels s.link.pads s.nextInput.peer s.env.draws).clk :: s.sync.clk).getD i true ∧
    t.sync.dat.getD i true =
      ((wireLevels s.link.pads s.nextInput.peer s.env.draws).dat :: s.sync.dat).getD i true := by
  obtain ⟨hsync, -⟩ := step_sync h hrst
  rw [hsync]
  exact ⟨Exchange.shiftStages_getD _ _ hi, Exchange.shiftStages_getD _ _ hi⟩

/-- In `n` steps without reset what a stage holds moves `n` stages on. -/
theorem run_stages {n i : Nat} {s t : State} (hin : ∀ inp ∈ s.env.inputs.take n, inp.rst = false)
    (hi : i + n < s.cfg.syncStages) (h : Host.Core.run Sys2Proof.core n s = .next t) :
    t.cfg = s.cfg ∧ t.sync.clk.getD (i + n) true = s.sync.clk.getD i true ∧
      t.sync.dat.getD (i + n) true = s.sync.dat.getD i true := by
  induction n generalizing s i with
  | zero =>
    cases h
    exact ⟨rfl, rfl, rfl⟩
  | succ n ih =>
    obtain ⟨u, hu, ht⟩ := run_succ_cases h
    obtain ⟨hrst, hrest⟩ := State.nextInput_rst_of_take hin
    have hcfg := step_cfg hu
    obtain ⟨hclk, hdat⟩ := step_stages hu hrst (i := i + 1) (by omega)
    obtain ⟨-, hqueue⟩ := step_sync hu hrst
    rw [← hqueue] at hrest
    obtain ⟨hcfg', hclk', hdat'⟩ := ih hrest (i := i + 1) (by rw [hcfg]; omega) ht
    rw [← Nat.add_right_comm, Nat.add_assoc] at hclk' hdat'
    exact ⟨hcfg'.trans hcfg, hclk'.trans hclk, hdat'.trans hdat⟩

/-- Settles O53: the first step puts the levels into stage 1, the others carry them to the last stage. -/
theorem synchroniserDelay : Obligations.SynchroniserDelay := by
  intro s t _ _ hin hpos h
  obtain ⟨n, hn⟩ := Nat.exists_eq_add_one_of_ne_zero hpos.ne'
  rw [hn] at hin h
  obtain ⟨u, hu, ht⟩ := run_succ_cases h
  obtain ⟨hrst, hrest⟩ := State.nextInput_rst_of_take hin
  have hcfg := step_cfg hu
  obtain ⟨hclk, hdat⟩ := step_stages hu hrst hpos
  obtain ⟨-, hqueue⟩ := step_sync hu hrst
  rw [← hqueue] at hrest
  obtain ⟨hcfg', hclk', hdat'⟩ := run_stages hrest (i := 0) (by rw [hcfg]; omega) ht
  have hlast : t.cfg.syncStages - 1 = 0 + n := by rw [hcfg', hcfg, hn]; omega
  rw [State.clkIn, State.datIn, hlast]
  exact ⟨hclk'.trans hclk, hdat'.trans hdat⟩

/-! A request that nobody answers. -/

theorem State.SameLink.pollFails {s v : State} (h : s.SameLink v) (hs : s.PollFails) : v.PollFails := by
  rw [State.PollFails, State.clkIn, State.datIn, h.link, h.sync, h.cfg]
  exact hs

/-- A line with no 0 on it in its synchroniser. -/
theorem shiftStages_ones (n : Nat) : shiftStages n true (List.replicate n true) = List.replicate n true := by
  rw [shiftStages, ← List.replicate_succ, List.take_replicate, min_eq_left (Nat.le_succ n)]

/-- The transaction `l` waits on a line that the synchronisers `y` show at 1: a read for a request on the clock wire, a
write for the ready pulse on the data wire. -/
def Link.WaitsOnIdleLine (c : Config) (l : Link) (y : Sync) : Prop :=
  (l.lstate = .rWaitReq ∧ l.pads = Pads.released ∧ y.clk = List.replicate c.syncStages true) ∨
  (l.lstate = .wWaitLow ∧ l.pads = ⟨true, false, false, false⟩ ∧ y.dat = List.replicate c.syncStages true)

/-- The transaction `l` has waited `n` polls for a peer that drives nothing. -/
structure State.Unanswered (c : Config) (l : Link) (n : Nat) (s : State) : Prop where
  cfg : s.cfg = c
  quiet : ∀ inp ∈ s.env.inputs, inp = CycleIn.quiet
  link : ∃ polls : BitVec 16, polls.toNat = n ∧ s.link = { l with tmo := polls }
  line : l.WaitsOnIdleLine c s.sync

section
variable {c : Config} {l : Link} {n : Nat} {s : State}

theorem State.Unanswered.nextInput (h : s.Unanswered c l n) : s.nextInput = CycleIn.quiet := by
  rw [State.nextInput]
  cases hq : s.env.inputs with
  | nil => rfl
  | cons inp rest => exact h.quiet inp (by simp [hq])

theorem State.Unanswered.pollFails (h : s.Unanswered c l n) : s.PollFails := by
  obtain ⟨polls, -, hlink⟩ := h.link
  rcases h.line with ⟨hl, -, hclk⟩ | ⟨hl, -, hdat⟩
  · exact .inr (.inr (.inl ⟨by rw [hlink, hl], by simp [State.clkIn, hclk, h.cfg]⟩))
  · exact .inl ⟨by rw [hlink, hl], by simp [State.datIn, hdat, h.cfg]⟩

theorem State.Unanswered.busy (h : s.Unanswered c l n) : s.link.lstate ≠ .idle := by
  obtain ⟨polls, -, hlink⟩ := h.link
  rcases h.line with ⟨hl, -⟩ | ⟨hl, -⟩ <;> simp [hlink, hl]

/-- With a quiet outside world the line that is waited for stays at 1. -/
theorem State.Unanswered.line_shift (h : s.Unanswered c l n) {t : State} (ht : step s = .next t) :
    l.WaitsOnIdleLine c t.sync := by
  obtain ⟨hsync, -⟩ := step_sync ht (by rw [h.nextInput]; rfl)
  obtain ⟨polls, -, hlink⟩ := h.link
  rw [hsync, h.nextInput, hlink, h.cfg]
  refine h.line.imp ?_ ?_
  · rintro ⟨hl, hpads, hclk⟩
    refine ⟨hl, hpads, ?_⟩
    rw [Sync.shift, hclk, hpads]
    exact shiftStages_ones _
  · rintro ⟨hl, hpads, hdat⟩
    refine ⟨hl, hpads, ?_⟩
    rw [Sync.shift, hdat, hpads]
    exact shiftStages_ones _

/-- One more cycle: the poll fails, and the TIMEOUT-th ends the transaction. -/
theorem State.Unanswered.step (h : s.Unanswered c l n) (hrange : c.inRange = true) :
    ∃ t, Machine.step s = .next t ∧ (n + 1 < c.timeout → t.Unanswered c l (n + 1)) ∧
      (n + 1 = c.timeout → t.link.lstate = .idle ∧ t.link.result = .timeout ∧ t.link.pads = Pads.released ∧
        t.link.count = if l.lstate.isRead then l.rCount else 0#8) := by
  have hrst : s.nextInput.rst = false := by rw [h.nextInput]; rfl
  obtain ⟨t, ht⟩ : ∃ t, Machine.step s = .next t := ⟨_, by
    rw [step_access (by rw [h.cfg, hrange]) hrst, h.nextInput]
    rfl⟩
  obtain ⟨v, hv, hlink⟩ := step_link_of_busy ht hrst h.busy
  obtain ⟨hcount, hfail⟩ := (hv.pollFails h.pollFails).linkTick_eq
  obtain ⟨polls, hpolls, hl⟩ := h.link
  obtain ⟨⟨-, hmax⟩, -⟩ := Config.ranges hrange
  rw [hv.link, hl, hpolls, hv.cfg, h.cfg] at hcount hfail
  refine ⟨t, ht, fun hmore => ?_, fun hlast => ?_⟩
  · have hquiet : ∀ inp ∈ t.env.inputs, inp = CycleIn.quiet := by
      rw [(step_sync ht hrst).2]
      exact fun inp hinp => h.quiet inp (List.mem_of_mem_tail hinp)
    refine ⟨(step_cfg ht).trans h.cfg, hquiet, ⟨polls + 1#16, ?_, ?_⟩, h.line_shift ht⟩
    · rw [toNat_add_one_of_lt (hpolls ▸ hmore) hmax, hpolls]
    · rw [hlink, hcount hmore.ne]
      rfl
  · rw [hlink, hfail hlast, State.failTimeout_link, hv.link, hl]
    exact ⟨rfl, rfl, rfl, rfl⟩

theorem State.Unanswered.run (h : s.Unanswered c l 0) (hrange : c.inRange = true) (hn : n < c.timeout) :
    ∃ u, Host.Core.run Sys2Proof.core n s = .next u ∧ u.Unanswered c l n := by
  induction n with
  | zero => exact ⟨s, rfl, h⟩
  | succ n ih =>
    obtain ⟨u, hu, hwait⟩ := ih (by omega)
    obtain ⟨t, ht, hmore, -⟩ := hwait.step hrange
    exact ⟨t, (run_succ_of_next hu).trans ht, hmore hn⟩

end

/-- Settles O51: the request stays unanswered up to its last poll, which ends it. -/
theorem unansweredRequestTimesOut : Obligations.UnansweredRequestTimesOut := by
  intro s hrange hquiet htmo hline
  have hstart : s.Unanswered s.cfg s.link 0 := ⟨rfl, hquiet, ⟨0#16, rfl, by rw [← htmo]⟩, hline⟩
  obtain ⟨⟨hpos, -⟩, -⟩ := Config.ranges hrange
  refine ⟨fun n hn => ?_, ?_⟩
  · obtain ⟨u, hu, hwait⟩ := hstart.run hrange hn
    obtain ⟨polls, -, hlink⟩ := hwait.link
    exact ⟨u, hu, by rw [hlink]⟩
  · obtain ⟨n, hn⟩ := Nat.exists_eq_add_one_of_ne_zero (Nat.ne_of_gt hpos)
    obtain ⟨u, hu, hwait⟩ := hstart.run hrange (n := n) (by omega)
    obtain ⟨t, ht, -, hend⟩ := hwait.step hrange
    obtain ⟨hidle, hresult, hpads, hcount⟩ := hend hn.symm
    refine ⟨t, hn ▸ (run_succ_of_next hu).trans ht, hidle, hresult, hpads, ?_⟩
    rw [hcount]
    rcases hline with ⟨hl, -⟩ | ⟨hl, -⟩ <;> simp [hl, LState.isRead]

end Sys2Proof.Machine
end

section
/-! SUPPORT. The resolution of the wires (R170, R171): each wire's level, and the marks of the contended ones. -/

namespace Sys2Proof.Machine

/-- The level of a wire, by which pads drive it (R170, R171). -/
theorem wireLevel_spec (oeA oA oeB oB : Bool) :
    (oeA = false → oeB = false → wireLevel oeA oA oeB oB = some true) ∧
    (oeA = true → oeB = false → wireLevel oeA oA oeB oB = some oA) ∧
    (oeA = false → oeB = true → wireLevel oeA oA oeB oB = some oB) ∧
    (oeA = true → oeB = true → oA = oB → wireLevel oeA oA oeB oB = some oA) ∧
    (oeA = true → oeB = true → oA ≠ oB → wireLevel oeA oA oeB oB = none) := by
  refine ⟨?_, ?_, ?_, ?_, ?_⟩
  · rintro rfl rfl
    rfl
  · rintro rfl rfl
    rfl
  · rintro rfl rfl
    rfl
  · rintro rfl rfl h
    exact if_pos h
  · rintro rfl rfl h
    exact if_neg h

theorem mem_addMark (f : Fault) (marks : List Fault) : f ∈ addMark f marks := by
  unfold addMark
  split
  · assumption
  · exact List.mem_cons_self

/-- A mark is sticky (R171). -/
theorem mem_addMark_of_mem {f g : Fault} {marks : List Fault} (h : g ∈ marks) : g ∈ addMark f marks := by
  unfold addMark
  split
  · exact h
  · exact List.mem_cons_of_mem f h

section
variable {a b : Pads}

theorem mem_marksAfter_of_mem {f : Fault} {marks : List Fault} (h : f ∈ marks) : f ∈ marksAfter a b marks := by
  have hclk : f ∈ if (clockWire a b).isNone then addMark .clkContention marks else marks := by
    split
    · exact mem_addMark_of_mem h
    · exact h
  simp only [marksAfter]
  split
  · exact mem_addMark_of_mem hclk
  · exact hclk

/-- A contended clock wire takes the draw's level and is marked (R171). -/
theorem clockWire_contended (h : clockWire a b = none) (n : Nat) (marks : List Fault) :
    (wireLevels a b n).clk = Config.clkDraw n ∧ drawsAfter a b n = n + 1 ∧
      Fault.clkContention ∈ marksAfter a b marks := by
  refine ⟨by simp [wireLevels, h], by simp [drawsAfter, contended, h], ?_⟩
  simp only [marksAfter, h, Option.isNone_none, if_true]
  split
  · exact mem_addMark_of_mem (mem_addMark _ _)
  · exact mem_addMark _ _

/-- A contended data wire takes the draw's level and is marked (R171). -/
theorem dataWire_contended (h : dataWire a b = none) (n : Nat) (marks : List Fault) :
    (wireLevels a b n).dat = Config.datDraw n ∧ drawsAfter a b n = n + 1 ∧
      Fault.datContention ∈ marksAfter a b marks := by
  refine ⟨by simp [wireLevels, h], by simp [drawsAfter, contended, h], ?_⟩
  simp only [marksAfter, h, Option.isNone_none, if_true]
  exact mem_addMark _ _

theorem wireLevels_clk_of_some {x : Bool} (h : clockWire a b = some x) (n : Nat) : (wireLevels a b n).clk = x := by
  rw [wireLevels, h, Option.getD_some]

theorem wireLevels_dat_of_some {x : Bool} (h : dataWire a b = some x) (n : Nat) : (wireLevels a b n).dat = x := by
  rw [wireLevels, h, Option.getD_some]

end

/-- Settles O52: each wire's five cases are those of `wireLevel`. -/
theorem wireResolution : Obligations.WireResolution := by
  intro a b n marks
  obtain ⟨hfree, hA, hB, hagree, hclash⟩ := wireLevel_spec a.clkOe a.clkO b.clkOe b.clkO
  obtain ⟨hfree', hA', hB', hagree', hclash'⟩ := wireLevel_spec a.datOe a.datO b.datOe b.datO
  exact ⟨fun ha hb => wireLevels_clk_of_some (hfree ha hb) n, fun ha hb => wireLevels_clk_of_some (hA ha hb) n,
    fun ha hb => wireLevels_clk_of_some (hB ha hb) n, fun ha hb e => wireLevels_clk_of_some (hagree ha hb e) n,
    fun ha hb e => clockWire_contended (hclash ha hb e) n marks,
    fun ha hb => wireLevels_dat_of_some (hfree' ha hb) n, fun ha hb => wireLevels_dat_of_some (hA' ha hb) n,
    fun ha hb => wireLevels_dat_of_some (hB' ha hb) n, fun ha hb e => wireLevels_dat_of_some (hagree' ha hb e) n,
    fun ha hb e => dataWire_contended (hclash' ha hb e) n marks, fun _ => mem_marksAfter_of_mem⟩

end Sys2Proof.Machine
end

section
/-! SUPPORT. No step stops (R236, R62): a host access answers a next state in every state, and so does the step. -/

namespace Sys2Proof.Machine

/-- A word written to CMD executes or is answered with an error; neither stops (R96, R236). -/
theorem State.issueCommand_next (v : Word) (s : State) : ∃ t, s.issueCommand v = .next t := by
  unfold State.issueCommand
  cases decode v with
  | ok i => exact exec_next i (s.withCmdLast v)
  | error e => exact ⟨_, rfl⟩

/-- No write faults (R62): the words of the window but CMD are stored or ignored. -/
theorem State.hostWrite_next (a : Addr) (v : Word) (s : State) : ∃ t, s.hostWrite a v = .next t := by
  unfold State.hostWrite
  cases Reg.ofAddr a with
  | cmd => exact s.issueCommand_next v
  | _ => exact ⟨_, rfl⟩

theorem State.hostAccess_next (op : Option BusOp) (s : State) : ∃ t, s.hostAccess op = .next t := by
  rcases op with _ | a | ⟨a, v⟩
  · exact ⟨s, rfl⟩
  · exact ⟨s, rfl⟩
  · exact s.hostWrite_next a v

/-- With parameters in R8's ranges a step answers a next state, with reset and without. -/
theorem step_next {s : State} (hrange : s.cfg.inRange = true) : ∃ t, step s = .next t := by
  rcases Bool.eq_false_or_eq_true s.nextInput.rst with hrst | hrst
  · exact ⟨_, step_reset hrange hrst⟩
  · obtain ⟨u, hu⟩ := State.hostAccess_next s.nextInput.bus
      ((s.resolveWires s.nextInput.peer).beginCycle s.nextInput)
    rw [step_access hrange hrst, hu]
    exact ⟨_, onNext_next u _⟩

/-- Settles O7: the step of admitted parameters goes on by its cases, reset and host access; others are refused. -/
theorem stepNeverStopsOnAdmittedParameters : Obligations.StepNeverStopsOnAdmittedParameters :=
  fun _ => ⟨step_next, step_of_not_inRange⟩

end Sys2Proof.Machine
end

section
/-! SUPPORT. Every link state but IDLE ends (R194, R236): a cycle that does not leave it spends one of its budget. -/

namespace Sys2Proof.Machine

/-- What a cycle does to a transaction's time in its link state: the state is left, or one more cycle is spent in it. -/
inductive Link.Spends (l k : Link) : Prop where
  | left (hstate : k.lstate ≠ l.lstate)
  | stayed (hstate : k.lstate = l.lstate) (hspent : k.spent = l.spent + 1)

/-- A bounded wait spends a cycle by counting a failed poll; its last poll ends in IDLE (R194, R207). -/
theorem State.boundedWait_spends {cond : Bool} {leave : State → State} {s : State} (h : s.link.Sound s.cfg)
    (hmax : s.cfg.timeout ≤ 65536) (hbusy : s.link.lstate ≠ .idle)
    (hspent : ∀ v, Link.spent { s.link with tmo := v } = v.toNat)
    (hleave : (leave s).link.lstate ≠ s.link.lstate) : s.link.Spends (s.boundedWait cond leave).link := by
  rcases State.boundedWait_cases cond leave s with ⟨-, e⟩ | ⟨-, -, e⟩ | ⟨-, hpoll, e⟩ <;> rw [e]
  · exact .left hleave
  · rw [State.failTimeout_link]
    exact .left hbusy.symm
  · have hcount : (s.link.tmo + 1#16).toNat = s.link.tmo.toNat + 1 :=
      toNat_add_one_of_lt (lt_of_le_of_ne h.tmo hpoll) hmax
    exact .stayed rfl ((hspent _).trans (hcount.trans (congrArg (· + 1) (hspent s.link.tmo).symm)))

/-- A fixed phase spends a cycle by counting it, up to its last one (R198, R199, R202). -/
theorem State.fixedPhase_spends {n : Nat} {leave : State → State} {s : State} (h : s.link.Sound s.cfg)
    (hmax : n ≤ 65536) (hphase : s.link.lstate.budget s.cfg = n) (hbusy : s.link.lstate ≠ .idle)
    (hspent : ∀ v, Link.spent { s.link with dly := v } = v.toNat)
    (hleave : (leave s).link.lstate ≠ s.link.lstate) : s.link.Spends (s.fixedPhase n leave).link := by
  have hnow : s.link.spent = s.link.dly.toNat := hspent s.link.dly
  have hwithin : s.link.dly.toNat < n := hphase ▸ hnow ▸ h.spent hbusy
  rcases State.fixedPhase_on_time leave hwithin hmax with ⟨-, e⟩ | ⟨c, -, hcount, e⟩ <;> rw [e]
  · exact .left hleave
  · exact .stayed rfl ((hspent c).trans (hcount.trans (congrArg (· + 1) hnow.symm)))

/-- Sampling a bit goes on in R_WAIT_LOW or ends the read (R203, R205). -/
theorem State.sampleBit_lstate_ne (s : State) : s.sampleBit.link.lstate ≠ .rWaitHigh := by
  rcases State.sampleBit_cases s with ⟨t, e, -, h⟩ | ⟨t, -, h⟩ <;> rw [h]
  · rw [State.completeRead_link]
    nofun
  · nofun

/-- The end of W_HIGH goes on in W_SETUP or ends the write (R199, R200). -/
theorem State.leaveHigh_lstate_ne (s : State) : s.leaveHigh.link.lstate ≠ .wHigh := by
  obtain ⟨-, h⟩ | ⟨-, h⟩ := s.leaveHigh_cases <;> rw [h] <;> nofun

/-- A cycle of the link state machine leaves the link state or spends a cycle of its budget, whatever the lines read. -/
theorem State.linkTick_spends {s : State} (hrange : s.cfg.inRange = true) (h : s.link.Sound s.cfg)
    (hbusy : s.link.lstate ≠ .idle) : s.link.Spends s.linkTick.link := by
  obtain ⟨⟨-, htimeout⟩, ⟨-, hsetup⟩, ⟨-, hhigh⟩, ⟨-, hready⟩, -⟩ := Config.ranges hrange
  have hwait {cond : Bool} {leave : State → State} :=
    State.boundedWait_spends (cond := cond) (leave := leave) h htimeout hbusy
  cases hl : s.link.lstate with
  | idle => exact absurd hl hbusy
  | wWaitLow =>
    rw [State.linkTick_wWaitLow hl]
    exact hwait (by simp [hl, Link.spent]) (by rw [hl]; nofun)
  | wWaitHigh =>
    rw [State.linkTick_wWaitHigh hl]
    exact hwait (by simp [hl, Link.spent]) (by rw [hl]; nofun)
  | wSetup =>
    rw [State.linkTick_wSetup hl]
    exact State.fixedPhase_spends h hsetup (by rw [hl]; rfl) hbusy (by simp [hl, Link.spent]) (by rw [hl]; nofun)
  | wHigh =>
    rw [State.linkTick_wHigh hl]
    exact State.fixedPhase_spends h hhigh (by rw [hl]; rfl) hbusy (by simp [hl, Link.spent])
      (by rw [hl]; exact s.leaveHigh_lstate_ne)
  | rWaitReq =>
    rw [State.linkTick_rWaitReq hl]
    exact hwait (by simp [hl, Link.spent]) (by rw [hl]; nofun)
  | rReady =>
    rw [State.linkTick_rReady hl]
    exact State.fixedPhase_spends h hready (by rw [hl]; rfl) hbusy (by simp [hl, Link.spent]) (by rw [hl]; nofun)
  | rWaitHigh =>
    rw [State.linkTick_rWaitHigh hl]
    exact hwait (by simp [hl, Link.spent]) (by rw [hl]; exact s.sampleBit_lstate_ne)
  | rWaitLow =>
    rw [State.linkTick_rWaitLow hl]
    exact hwait (by simp [hl, Link.spent]) (by rw [hl]; nofun)

/-- A busy unit's step, whatever its inputs: a reset leaves the link state for IDLE, any other cycle is one of the link
state machine (R236, R260). -/
theorem step_spends {s : State} (hrange : s.cfg.inRange = true) (h : s.link.Sound s.cfg)
    (hbusy : s.link.lstate ≠ .idle) :
    ∃ t, step s = .next t ∧ t.link.Sound t.cfg ∧ s.link.Spends t.link := by
  obtain ⟨t, ht⟩ := step_next hrange
  refine ⟨t, ht, ?_⟩
  rcases Bool.eq_false_or_eq_true s.nextInput.rst with hrst | hrst
  · rw [step_cfg ht, step_link_of_reset ht hrst]
    exact ⟨Link.sound_reset hrange, .left hbusy.symm⟩
  · obtain ⟨v, hv, hlink⟩ := step_link_of_busy ht hrst hbusy
    rw [step_cfg ht, hlink]
    rw [← hv.cfg] at hrange h ⊢
    rw [← hv.link] at h hbusy ⊢
    exact ⟨State.linkTick_sound hrange h, State.linkTick_spends hrange h hbusy⟩

theorem run_succ {M : Host.Core} {s t : M.State} (h : M.step s = .next t) (n : Nat) : M.run (n + 1) s = M.run n t := by
  rw [Host.Core.run, h]

/-- A link state with at most `m` cycles of its budget unspent is left within `m` steps. -/
theorem exists_run_leaving {m : Nat} {s : State} (hrange : s.cfg.inRange = true) (h : s.link.Sound s.cfg)
    (hbusy : s.link.lstate ≠ .idle) (hm : s.link.lstate.budget s.cfg ≤ s.link.spent + m) :
    ∃ n t, n ≤ m ∧ Host.Core.run Sys2Proof.core n s = .next t ∧ t.link.lstate ≠ s.link.lstate := by
  induction m generalizing s with
  | zero => exact absurd (h.spent hbusy) (Nat.not_lt.mpr hm)
  | succ m ih =>
    obtain ⟨u, hu, hsound, hspends⟩ := step_spends hrange h hbusy
    have hrun := run_succ (M := Sys2Proof.core) hu
    cases hspends with
    | left hstate => exact ⟨1, u, by omega, hrun 0, hstate⟩
    | stayed hstate hspent =>
      obtain ⟨n, t, hn, ht, hleft⟩ := ih (by rwa [step_cfg hu]) hsound (hstate ▸ hbusy)
        (by rw [hstate, step_cfg hu, hspent]; omega)
      exact ⟨n + 1, t, by omega, (hrun n).trans ht, hstate ▸ hleft⟩

/-- Settles O50: by induction on the part of the budget that is still unspent. -/
theorem everyLinkStateIsLeft : Obligations.EveryLinkStateIsLeft := by
  intro s hrange hinv hbusy
  obtain ⟨hsound, -⟩ := s.linkInv_iff.mp hinv
  have hwithin := hsound.spent hbusy
  obtain ⟨n, t, hn, ht, hleft⟩ :=
    exists_run_leaving (m := s.link.lstate.budget s.cfg - s.link.spent) hrange hsound hbusy (by omega)
  exact ⟨n, t, by omega, ht, hleft⟩

end Sys2Proof.Machine
end

section
/-! SUPPORT. The synchronisers after reset (R39, R263): cycle by cycle their stages take the levels of the wires, and the
last one no sooner than SYNC_STAGES cycles after reset. -/

namespace Sys2Proof.Machine

/-- Of a line's `m` stages all from index `n` on hold 1. -/
def HighFrom (m n : Nat) (stages : List Bool) : Prop := ∀ i, n ≤ i → i < m → stages.getD i true = true

theorem HighFrom.of_reset (m n : Nat) : HighFrom m n (List.replicate m true) := by
  intro i _ hi
  simp [hi]

/-- A cycle brings the level of the wire at most one stage further (R172). -/
theorem HighFrom.shiftStages {m n : Nat} {stages : List Bool} (h : HighFrom m n stages) (level : Bool) :
    HighFrom m (n + 1) (shiftStages m level stages) := by
  rintro (_ | i) hn hi
  · cases hn
  · rw [Exchange.shiftStages_getD _ _ hi, List.getD_cons_succ]
    exact h i (Nat.le_of_succ_le_succ hn) (Nat.lt_of_succ_lt hi)

/-- Every stage of both synchronisers but the first `n` still holds the 1 of the reset. -/
structure State.SyncHighFrom (c : Config) (n : Nat) (s : State) : Prop where
  cfg : s.cfg = c
  clk : HighFrom c.syncStages n s.sync.clk
  dat : HighFrom c.syncStages n s.sync.dat

section
variable {c : Config} {n : Nat} {s t : State}

theorem State.SyncHighFrom.of_sync_reset (n : Nat) (hcfg : s.cfg = c) (hsync : s.sync = Sync.reset c) :
    s.SyncHighFrom c n where
  cfg := hcfg
  clk := by rw [hsync]; exact .of_reset _ n
  dat := by rw [hsync]; exact .of_reset _ n

/-- One step on, the wires' levels stand in one more stage at most; after a step with `rst = 1`, in none. -/
theorem State.SyncHighFrom.step (h : s.SyncHighFrom c n) (ht : Machine.step s = .next t) :
    t.SyncHighFrom c (n + 1) := by
  have hcfg : t.cfg = c := (step_cfg ht).trans h.cfg
  obtain ⟨-, ⟨-, hreset⟩ | ⟨hrst, -⟩⟩ := step_cases ht
  · exact .of_sync_reset (n + 1) hcfg (by rw [hreset, ← h.cfg]; rfl)
  · obtain ⟨hsync, -⟩ := step_sync ht hrst
    rw [h.cfg] at hsync
    exact ⟨hcfg, by rw [hsync]; exact h.clk.shiftStages _, by rw [hsync]; exact h.dat.shiftStages _⟩

theorem State.SyncHighFrom.run {m : Nat} (h : s.SyncHighFrom c m) (ht : Host.Core.run Sys2Proof.core n s = .next t) :
    t.SyncHighFrom c (m + n) := by
  induction n generalizing s m with
  | zero =>
    cases ht
    exact h
  | succ n ih =>
    obtain ⟨u, hu, ht⟩ := run_succ_cases ht
    rw [← Nat.add_assoc, Nat.add_right_comm]
    exact ih (h.step hu) ht

theorem State.SyncHighFrom.inputs_high (h : s.SyncHighFrom c n) (hn : n < c.syncStages) :
    s.clkIn = true ∧ s.datIn = true := by
  rw [State.clkIn, State.datIn, h.cfg]
  exact ⟨h.clk _ (by omega) (by omega), h.dat _ (by omega) (by omega)⟩

end

/-- Settles O54: `n` cycles after reset the levels of the wires stand in the first `n` stages at most, and the last stage
is not one of them. -/
theorem inputsReadHighAfterReset : Obligations.InputsReadHighAfterReset := by
  intro c inputs n t hn h
  have hstart : State.SyncHighFrom c 0 { State.resetWith c with env := { Env.reset c with inputs := inputs } } :=
    .of_sync_reset 0 rfl rfl
  exact (hstart.run h).inputs_high (by omega)

end Sys2Proof.Machine
end

section
/-! SUPPORT. What a pair is refused for (R9, R267, R276), and that an admitted one takes its clock edges. -/

namespace Sys2Proof.Machine

/-! The conditions on the parameters, in the words of the rules. -/

/-- Two endpoints are refused in lockstep exactly where they are configured alike and break R9's bound (log 10). -/
theorem Config.lockstepOk_eq_true {a b : Config} :
    Config.lockstepOk a b = true ↔ (Config.sameTiming a b = true → a.lockstepBound = true) := by
  cases h : Config.sameTiming a b <;> simp [Config.lockstepOk, h]

theorem Config.sameTiming_eq_true {a b : Config} :
    Config.sameTiming a b = true ↔ a.timeout = b.timeout ∧ a.tSetup = b.tSetup ∧ a.tHigh = b.tHigh ∧
      a.tReady = b.tReady ∧ a.syncStages = b.syncStages := by
  simp [Config.sameTiming, and_assoc]

theorem Config.lockstepBound_eq_true {c : Config} :
    c.lockstepBound = true ↔ max (max c.tHigh c.tReady) (2 * c.syncStages + c.tSetup + 2) ≤ c.timeout :=
  decide_eq_true_iff

theorem asyncTimingOk_eq_true {cw cr : Config} {pw pr : Nat} :
    asyncTimingOk cw cr pw pr = true ↔
      cw.tSetup * pw > (cr.syncStages + 1) * pr ∧ cw.tHigh * pw > (cr.syncStages + 1) * pr ∧
      cr.tReady * pr > (cw.syncStages + 1) * pw ∧
      cr.timeout * pr > max cw.tSetup cw.tHigh * pw + (sharedStages cw cr + 2) * (pw + pr) ∧
      cr.timeout * pr > cw.tSetup * pw + (2 * sharedStages cw cr + 3) * (pw + pr) ∧
      cw.timeout * pw > cr.tReady * pr + (2 * sharedStages cw cr + 3) * (pw + pr) := by
  simp only [asyncTimingOk, decide_eq_true_eq, gt_iff_lt, and_assoc]

/-- The larger SYNC_STAGES of a pair, whichever of its endpoints writes (log 17). -/
theorem Pair.sharedStages_endpoints (p : Pair) (e : Endpoint) :
    sharedStages (p.endpoint e).cfg (p.endpoint e.other).cfg = max p.a.cfg.syncStages p.b.cfg.syncStages := by
  cases e with
  | a => rfl
  | b => exact max_comm _ _

theorem Pair.endpoint_cfg (p : Pair) (e : Endpoint) :
    (p.endpoint e).cfg = (if e = .a then p.a.cfg else p.b.cfg) ∧
    (p.endpoint e.other).cfg = (if e = .a then p.b.cfg else p.a.cfg) := by
  cases e <;> exact ⟨rfl, rfl⟩

theorem Clocks.period_endpoint (k : Clocks) (e : Endpoint) :
    k.period e = (if e = .a then k.periodA else k.periodB) ∧
    k.period e.other = (if e = .a then k.periodB else k.periodA) := by
  cases e <;> exact ⟨rfl, rfl⟩

/-! The refusals and the edges. -/

section
variable {p : Pair} {o : Host.Outcome Pair Fault Refusal}

/-- A pair with parameters in R8's ranges and different BIT_ORDER is refused by both compositions (R267). -/
theorem Pair.compatible_of_ne (ha : p.a.cfg.inRange = true) (hb : p.b.cfg.inRange = true)
    (hne : p.a.cfg.bitOrder ≠ p.b.cfg.bitOrder) : p.compatible o = .refused .bitOrderMismatch := by
  simp [Pair.compatible, Pair.unless, ha, hb, hne]

/-- Of endpoints that agree on BIT_ORDER a composition asks one thing more, `P`: where it fails the pair is refused, and
where it holds the pair takes the clock edges `o`. -/
theorem Pair.compatible_unless (ha : p.a.cfg.inRange = true) (hb : p.b.cfg.inRange = true)
    (heq : p.a.cfg.bitOrder = p.b.cfg.bitOrder) {ok : Bool} {P : Prop} (hok : ok = true ↔ P) (r : Refusal)
    (ho : ∃ q, o = .next q) :
    (¬ P → p.compatible (Pair.unless ok r o) = .refused r) ∧
    (P → ∃ q, p.compatible (Pair.unless ok r o) = .next q) := by
  constructor
  · intro hP
    have hfails : ok = false := Bool.eq_false_iff.mpr (mt hok.mp hP)
    simp [Pair.compatible, Pair.unless, ha, hb, heq, hfails]
  · intro hP
    obtain ⟨q, hq⟩ := ho
    exact ⟨q, Pair.compatible_eq_next.mpr ⟨ha, hb, heq, Pair.unless_eq_next.mpr ⟨hok.mpr hP, hq⟩⟩⟩

end

/-- A cycle of an endpoint never stops (R236), whatever the levels of the wires. -/
theorem State.clockOn_next (lv : Levels) (s : State) : ∃ t, s.clockOn lv = .next t := by
  unfold State.clockOn State.clockCycle
  split
  · exact ⟨_, rfl⟩
  · obtain ⟨u, hu⟩ := State.hostAccess_next s.nextInput.bus (s.beginCycle s.nextInput)
    rw [hu]
    exact ⟨_, onNext_next u _⟩

theorem Pair.edge_next (w : Tick) (p : Pair) : ∃ q, p.edge w = .next q := by
  obtain ⟨s, hs⟩ := State.clockOn_next p.levels p.a
  obtain ⟨t, ht⟩ := State.clockOn_next p.levels p.b
  cases w with
  | onlyA => exact ⟨_, by rw [Pair.edge, hs]; rfl⟩
  | onlyB => exact ⟨_, by rw [Pair.edge, ht]; rfl⟩
  | both => exact ⟨_, by rw [Pair.edge, hs, ht]; rfl⟩

/-- The cycle of an endpoint whose `rst` is 1 gives its reset values (R213, R260). -/
theorem State.clockOn_reset {lv : Levels} {s t : State} (h : (s.withNextRst true).clockOn lv = .next t) :
    t = { State.resetWith s.cfg with env := t.env } := by
  obtain ⟨-, rfl⟩ | ⟨hrst, -⟩ := State.clockCycle_cases h
  · rfl
  · cases hrst

/-- The reset is common in lockstep: either queue's `rst` gives both endpoints their reset values (R213, log 15). -/
theorem Pair.lockstep_reset {p q : Pair} (h : p.lockstep = .next q)
    (hrst : p.a.nextInput.rst = true ∨ p.b.nextInput.rst = true) :
    q.a = { State.resetWith p.a.cfg with env := q.a.env } ∧ q.b = { State.resetWith p.b.cfg with env := q.b.env } := by
  obtain ⟨-, s, t, hs, ht, rfl⟩ := Pair.lockstep_cases h
  rw [Pair.commonRst_eq_true.mpr hrst] at hs ht
  exact ⟨State.clockOn_reset hs, State.clockOn_reset ht⟩

/-- Settles O56: both compositions guard clock edges that never stop, and the guards say what the rules say. -/
theorem pairRefusesMismatchedEndpoints : Obligations.PairRefusesMismatchedEndpoints := by
  intro p k w ha hb ca cb alike bound cw cr pw pr stages timing
  have hlockstepOk : Config.lockstepOk ca cb = true ↔ ¬ alike ∨ bound := by
    rw [Config.lockstepOk_eq_true, Config.sameTiming_eq_true, Config.lockstepBound_eq_true, imp_iff_not_or]
  have htimingOk : k.timingOk p = true ↔ timing := by
    obtain ⟨hcw, hcr⟩ := p.endpoint_cfg k.writer
    obtain ⟨hpw, hpr⟩ := k.period_endpoint k.writer
    rw [Clocks.timingOk, asyncTimingOk_eq_true, p.sharedStages_endpoints, hcw, hcr, hpw, hpr]
  refine ⟨fun hne => ⟨Pair.compatible_of_ne ha hb hne, Pair.compatible_of_ne ha hb hne⟩, fun heq => ?_⟩
  obtain ⟨hlockstepRefused, hlockstepNext⟩ :=
    Pair.compatible_unless ha hb heq hlockstepOk .lockstepBound (p.shareRst.edge_next .both)
  obtain ⟨htickRefused, htickNext⟩ := Pair.compatible_unless ha hb heq htimingOk .clockTiming (p.edge_next w)
  refine ⟨?_, ?_, htickRefused, htickNext⟩
  · rintro ⟨halike, hbound⟩
    exact hlockstepRefused fun hadmitted => hadmitted.elim (absurd halike) hbound
  · intro hadmitted
    obtain ⟨q, hq⟩ := hlockstepNext hadmitted
    exact ⟨q, hq, Pair.lockstep_reset hq⟩

end Sys2Proof.Machine
end
